-- ==== Sys2Proof/Word.lean ====
section
/-! DEFINITION. The number types of the Zofrisa 4120: the counts that wrap and the bytes and words that cross the
highways are bit vectors; every other count, size and index of the model is a `Nat` (manual section 2.1). -/

namespace Sys2Proof

/-- A code or a byte of a cell, 0 to 255 (R1). -/
abbrev Byte := BitVec 8

/-- One word of a key, 0 to 65535 (R22). -/
abbrev KeyWord := BitVec 16

/-- A frame number or a value of the Frame Count, 0 to 16,777,215, wrapping (R8, R22, R130). -/
abbrev FrameNumber := BitVec 24

/-- A value of the Second Count, 0 to 65535, wrapping (R9). -/
abbrev SecondNumber := BitVec 16

/-- A key generation, 0 to 3, returning to 0 after 3 (R133, R135). -/
abbrev Generation := BitVec 2

/-- A key or a secret: four words (R22, R52, R114). -/
structure Key where
  k0 : KeyWord
  k1 : KeyWord
  k2 : KeyWord
  k3 : KeyWord
  deriving DecidableEq, Repr

/-- The four response bytes of an ANSWER, in the order the cell carries them (R70, R92). -/
structure Response where
  b1 : Byte
  b2 : Byte
  b3 : Byte
  b4 : Byte
  deriving DecidableEq, Repr

end Sys2Proof
end

