-- ==== Sys2Proof/Machine/Bytes.lean ====
section
/-! DEFINITION. Fields of more than one byte, most significant byte first (R174). -/

namespace Sys2Proof.Machine

/-- A one-byte field. -/
def field1 (n : Nat) : List Byte := [BitVec.ofNat 8 n]

/-- A two-byte field. -/
def field2 (n : Nat) : List Byte := [BitVec.ofNat 8 (n / 256), BitVec.ofNat 8 n]

/-- A three-byte field. -/
def field3 (n : Nat) : List Byte := [BitVec.ofNat 8 (n / 65536), BitVec.ofNat 8 (n / 256), BitVec.ofNat 8 n]

/-- A four-byte field. -/
def field4 (n : Nat) : List Byte :=
  [BitVec.ofNat 8 (n / 16777216), BitVec.ofNat 8 (n / 65536), BitVec.ofNat 8 (n / 256), BitVec.ofNat 8 n]

/-- The number in a two-byte field. -/
def read2 (b0 b1 : Byte) : Nat := b0.toNat * 256 + b1.toNat

/-- The number in a four-byte field. -/
def read4 (b0 b1 b2 b3 : Byte) : Nat := (b0.toNat * 256 + b1.toNat) * 65536 + (b2.toNat * 256 + b3.toNat)

/-- The first eight bytes of a list, filled with 0: bytes a layout does not use are sent as 0 (R174). -/
def eightBytes (bytes : List Byte) : List Byte :=
  (bytes ++ List.replicate 8 0).take 8

/-- The first six bytes of a list, filled with 0: the page bytes of an ANSWER (R174, R177). -/
def sixBytes (bytes : List Byte) : List Byte :=
  (bytes ++ List.replicate 6 0).take 6

end Sys2Proof.Machine
end

