-- ==== Sys2Proof/Syntax.lean ====
section
/-! DEFINITION. The commands of the block: one constructor of `Instr` for each row of spec/opcode_table.json.
Three sorts of command share the queue: what the pins do (the reset pin, the frame pulse, codes and cells), the part's
own events at a frame boundary or a deadline, and the management cells of call control.
The table gives its rows no operands, so each operand is taken from the rule the row names; where a cell's layout
(R174, R176) packs a field, the operand is that field as the layout separates it. -/

namespace Sys2Proof

/-- How the frame pulse came to be absent (R13): the 1024th bit was taken and no pulse fell there, or the bit clock
stopped within a frame. -/
inductive PulseLoss where
  | afterFrame
  | withinFrame
  deriving DecidableEq, Repr

/-- What arrives in a speech slot: a code the highway carried (R3), or the code 255 that the part supplies at a
boundary that cut the frame short (R2). -/
inductive Arrival where
  | carried (code : Byte)
  | supplied
  deriving DecidableEq, Repr

/-- The two sides of a position: toward the line (Lh) and toward the switch (Sh). -/
inductive Side where
  | line
  | switch
  deriving DecidableEq, Repr

/-- The two halves of a key: words k0 and k1, and words k2 and k3 (R166). -/
inductive Half where
  | low
  | high
  deriving DecidableEq, Repr

inductive Instr where
  /-- A complete hardware reset: RSTN held low for at least 250 µs and its rising edge (R14). -/
  | hardwareReset
  /-- The first frame pulse after a hardware reset (R2, R7, R14). -/
  | firstFramePulse
  /-- A frame pulse that is a frame boundary; `cutShort` when it falls before the 1024th bit of the frame (R2). -/
  | frameBoundary (cutShort : Bool)
  /-- The frame pulse or the bit clock is lost (R13). -/
  | framePulseAbsent (loss : PulseLoss)
  /-- The Frame Prescale would reach 8000 (R9). -/
  | secondCountAdvance
  /-- The Mixing Unit takes verification items at a boundary (R28). -/
  | verificationTake
  /-- The items taken at the boundary before complete (R30, R96). -/
  | verificationComplete
  /-- The outbound line cell of one highway is taken at a boundary (R7). -/
  | lineReplySend (highway : Fin 4)
  /-- The outbound management cell is taken at a boundary (R7, R172). -/
  | reportSend
  /-- The upstream arrival of a position (R3, R34). -/
  | upstreamArrival (position : Fin 480) (arrival : Arrival)
  /-- The downstream arrival of a position (R3, R34). -/
  | downstreamArrival (position : Fin 480) (arrival : Arrival)
  /-- The transmit side's work for one context at a boundary (R130). -/
  | txFrameAdvance (context : Fin 256)
  /-- The advance of one playout channel at a boundary (R160). -/
  | playoutAdvance (channel : Fin 16)
  /-- The Frame Count reaches a position's hold-off deadline (R77). -/
  | holdOffDeadline (position : Fin 480)
  /-- The Frame Count reaches the answer deadline of an entry's candidate (R86, R87). -/
  | answerDeadline (entry : Fin 1024)
  /-- The Second Count reaches an entry's refresh deadline (R108). -/
  | refreshLapse (entry : Fin 1024)
  /-- The Second Count reaches an entry's re-challenge deadline (R110). -/
  | rechallengeDeadline (entry : Fin 1024)
  /-- An idle line cell (R70). -/
  | lineIdle (highway : Fin 4)
  /-- A line cell of unknown kind, or of a known kind with a slot of 120 or more (R70). -/
  | lineCellDiscarded (highway : Fin 4) (kind slot : Nat)
  /-- SIGN-ON (R81). -/
  | signOn (highway : Fin 4) (slot identity : Nat)
  /-- ANSWER (R84). -/
  | answer (highway : Fin 4) (slot : Nat) (response : Response)
  /-- KEEPALIVE (R88). -/
  | keepalive (highway : Fin 4) (slot : Nat)
  /-- SIGN-OFF (R90, R91). -/
  | signOff (highway : Fin 4) (slot : Nat)
  /-- An idle management cell (R164). -/
  | managementIdle
  /-- A management cell whose kind is none of the nineteen (R164). -/
  | unknownKind (tag : Byte) (kind : Nat)
  /-- LOAD EXTENSION (R57). -/
  | loadExtension (tag : Byte) (entry group identity : Nat)
  /-- UNLOAD EXTENSION (R59). -/
  | unloadExtension (tag : Byte) (entry : Nat)
  /-- SECRET HALF (R56, R167). -/
  | secretHalf (tag : Byte) (half : Half) (entry : Nat) (first second : KeyWord)
  /-- FORCE SIGN-OFF (R60). -/
  | forceSignOff (tag : Byte) (entry : Nat)
  /-- BAR (R61). -/
  | bar (tag : Byte) (entry : Nat)
  /-- UNBAR (R62). -/
  | unbar (tag : Byte) (entry : Nat)
  /-- SET GROUP LIMITS (R67). -/
  | setGroupLimits (tag : Byte) (group budget failureLimit : Nat)
  /-- SET GROUP TIMES (R68). -/
  | setGroupTimes (tag : Byte) (group refresh rechallenge : Nat)
  /-- STAGED HALF (R124, R167). -/
  | stagedHalf (tag : Byte) (half : Half) (context : Nat) (first second : KeyWord)
  /-- OPEN CALL (R117, R118). -/
  | openCall (tag : Byte) (context position loopFlag : Nat)
  /-- CLOSE CALL (R121). -/
  | closeCall (tag : Byte) (context : Nat)
  /-- SET POSITION TREATMENT (R49). -/
  | setPositionTreatment (tag : Byte) (position treatment toneChannel : Nat)
  /-- SET POSITION GAIN (R50). -/
  | setPositionGain (tag : Byte) (position direction gain : Nat)
  /-- LOAD PATTERN (R156). -/
  | loadPattern (tag : Byte) (address : Nat) (c0 c1 c2 c3 : Byte)
  /-- SET PLAYOUT (R158). -/
  | setPlayout (tag : Byte) (channel repeats mode start length : Nat)
  /-- STOP PLAYOUT (R159). -/
  | stopPlayout (tag : Byte) (channel : Nat)
  /-- SET DEVICE (R168). -/
  | setDevice (tag : Byte) (setting value : Nat)
  /-- READ (R169). -/
  | read (tag : Byte) (page index part : Nat)
  /-- RESTART with any scope but ALL: scope 1 is CALLS, every other is refused (R170). -/
  | restartCalls (tag : Byte) (scope : Nat)
  /-- RESTART with scope ALL (R170). -/
  | restartAll (tag : Byte)
  /-- The first bit of a position's outbound speech slot is driven on one side (R34). -/
  | waitingCodeSent (position : Fin 480) (side : Side)
  deriving DecidableEq, Repr

end Sys2Proof
end

