-- ==== Sys2Proof/WellFormed.lean ====
section
/-! DEFINITION. When a command is one that the pins can bring: each field of a cell lies in the range its layout can
carry (R174, R176), and a row that stands for some cells only (an unknown kind, a discarded line cell, a RESTART that
is not ALL) names one of those. Commands without fields, and those whose operands are bounded by their types, are
always well formed. -/

namespace Sys2Proof

/-- The range checks of one command. -/
def Instr.wellFormed : Instr → Bool
  | .lineCellDiscarded _ kind slot =>
      decide (kind < 256) && decide (slot < 256) && decide (4 < kind ∨ (kind ≠ 0 ∧ 120 ≤ slot))
  | .signOn _ slot identity => decide (slot < 120) && decide (identity < 4294967296)
  | .answer _ slot _ => decide (slot < 120)
  | .keepalive _ slot => decide (slot < 120)
  | .signOff _ slot => decide (slot < 120)
  | .unknownKind _ kind => decide (19 < kind) && decide (kind < 256)
  | .loadExtension _ entry group identity =>
      decide (entry < 4096) && decide (group < 16) && decide (identity < 4294967296)
  | .unloadExtension _ entry => decide (entry < 65536)
  | .secretHalf _ _ entry _ _ => decide (entry < 32768)
  | .forceSignOff _ entry => decide (entry < 65536)
  | .bar _ entry => decide (entry < 65536)
  | .unbar _ entry => decide (entry < 65536)
  | .setGroupLimits _ group budget failureLimit =>
      decide (group < 256) && decide (budget < 65536) && decide (failureLimit < 256)
  | .setGroupTimes _ group refresh rechallenge =>
      decide (group < 256) && decide (refresh < 65536) && decide (rechallenge < 65536)
  | .stagedHalf _ _ context _ _ => decide (context < 32768)
  | .openCall _ context position loopFlag =>
      decide (context < 65536) && decide (position < 65536) && decide (loopFlag < 256)
  | .closeCall _ context => decide (context < 65536)
  | .setPositionTreatment _ position treatment toneChannel =>
      decide (position < 65536) && decide (treatment < 256) && decide (toneChannel < 256)
  | .setPositionGain _ position direction gain =>
      decide (position < 65536) && decide (direction < 256) && decide (gain < 65536)
  | .loadPattern _ address _ _ _ _ => decide (address < 65536)
  | .setPlayout _ channel repeats mode start length =>
      decide (channel < 256) && decide (repeats < 256) && decide (mode < 4) && decide (start < 16384) &&
        decide (length < 65536)
  | .stopPlayout _ channel => decide (channel < 256)
  | .setDevice _ setting value => decide (setting < 256) && decide (value < 65536)
  | .read _ page index part => decide (page < 256) && decide (index < 65536) && decide (part < 256)
  | .restartCalls _ scope => decide (scope < 256) && decide (scope ≠ 2)
  | .hardwareReset | .firstFramePulse | .frameBoundary _ | .framePulseAbsent _ | .secondCountAdvance
  | .verificationTake | .verificationComplete | .lineReplySend _ | .reportSend | .upstreamArrival _ _
  | .downstreamArrival _ _ | .txFrameAdvance _ | .playoutAdvance _ | .holdOffDeadline _ | .answerDeadline _
  | .refreshLapse _ | .rechallengeDeadline _ | .lineIdle _ | .managementIdle | .restartAll _
  | .waitingCodeSent _ _ => true

end Sys2Proof
end

