-- ==== Sys2Proof/Decode.lean ====
section
/-! DEFINITION. Reading commands from what the pins carry. The rows of spec/opcode_table.json give no bits, so
`decodeTableWord` reads none; the inbound management cells and line cells have byte layouts of their own (R164, R174,
R176), which the two decoders below read and the encoder writes. -/

namespace Sys2Proof

open Sys2Proof.Machine

/-- The command a word spells by the table's bits: no row of the table gives bits. -/
def decodeTableWord (_nbits _w : Nat) : Option Instr := none

/-- The half a bit names (R174). -/
def halfOf (bit : Nat) : Half := if bit = 0 then .low else .high

/-- A management cell of a known kind other than idle, from its kind, its tag and its payload bytes 2 to 7 (R174). -/
def decodeKind (kind : Nat) (tag b2 b3 b4 b5 b6 b7 : Byte) : Instr :=
  let w := read2 b2 b3
  match kind with
  | 1 => .loadExtension tag (w % 4096) (w / 4096) (read4 b4 b5 b6 b7)
  | 2 => .unloadExtension tag w
  | 3 => .secretHalf tag (halfOf (w / 32768)) (w % 32768) (b4 ++ b5) (b6 ++ b7)
  | 4 => .forceSignOff tag w
  | 5 => .bar tag w
  | 6 => .unbar tag w
  | 7 => .setGroupLimits tag b2.toNat (read2 b3 b4) b5.toNat
  | 8 => .setGroupTimes tag b2.toNat (read2 b3 b4) (read2 b5 b6)
  | 9 => .stagedHalf tag (halfOf (w / 32768)) (w % 32768) (b4 ++ b5) (b6 ++ b7)
  | 10 => .openCall tag w (read2 b4 b5) b6.toNat
  | 11 => .closeCall tag w
  | 12 => .setPositionTreatment tag w b4.toNat b5.toNat
  | 13 => .setPositionGain tag w b4.toNat (read2 b5 b6)
  | 14 => .loadPattern tag w b4 b5 b6 b7
  | 15 => .setPlayout tag b2.toNat b3.toNat (read2 b4 b5 / 16384) (read2 b4 b5 % 16384) (read2 b6 b7)
  | 16 => .stopPlayout tag b2.toNat
  | 17 => .setDevice tag b2.toNat (read2 b3 b4)
  | 18 => .read tag b2.toNat (read2 b3 b4) b5.toNat
  | 19 => if b2 = 2 then .restartAll tag else .restartCalls tag b2.toNat
  | k => .unknownKind tag k

/-- The command an inbound management cell is; eight bytes make a cell (R6, R164, R174). -/
def decodeManagementCell (bytes : List Byte) : Option Instr :=
  match bytes with
  | [b0, tag, b2, b3, b4, b5, b6, b7] =>
      if b0 = 0 then some .managementIdle else some (decodeKind b0.toNat tag b2 b3 b4 b5 b6 b7)
  | _ => none

/-- A line cell of a known kind whose slot is a speech slot (R70, R176). -/
def decodeLineKind (highway : Fin 4) (kind slot : Nat) (b2 b3 b4 b5 : Byte) : Instr :=
  match kind with
  | 1 => .signOn highway slot (read4 b2 b3 b4 b5)
  | 2 => .answer highway slot ⟨b2, b3, b4, b5⟩
  | 3 => .keepalive highway slot
  | 4 => .signOff highway slot
  | k => .lineCellDiscarded highway k slot

/-- The command an inbound line cell of a highway is; eight bytes make a cell (R6, R70, R176). -/
def decodeLineCell (highway : Fin 4) (bytes : List Byte) : Option Instr :=
  match bytes with
  | [b0, b1, b2, b3, b4, b5, _, _] =>
      if b0 = 0 then some (.lineIdle highway)
      else if 120 ≤ b1.toNat then some (.lineCellDiscarded highway b0.toNat b1.toNat)
      else some (decodeLineKind highway b0.toNat b1.toNat b2 b3 b4 b5)
  | _ => none

/-- A half as the multiplier of its packed field (R174). -/
def halfBit (half : Half) : Nat :=
  match half with
  | .low => 0
  | .high => 1

/-- A two-byte field from a word. -/
def wordField (w : KeyWord) : List Byte := field2 w.toNat

/-- The kind and payload of a management cell; `none` for a command that is no management cell (R174). -/
def managementPayload : Instr → Option (Nat × Byte × List Byte)
  | .managementIdle => some (0, 0, [])
  | .unknownKind tag kind => some (kind, tag, [])
  | .loadExtension tag entry group identity => some (1, tag, field2 (4096 * group + entry) ++ field4 identity)
  | .unloadExtension tag entry => some (2, tag, field2 entry)
  | .secretHalf tag half entry first second =>
      some (3, tag, field2 (32768 * halfBit half + entry) ++ wordField first ++ wordField second)
  | .forceSignOff tag entry => some (4, tag, field2 entry)
  | .bar tag entry => some (5, tag, field2 entry)
  | .unbar tag entry => some (6, tag, field2 entry)
  | .setGroupLimits tag group budget failureLimit =>
      some (7, tag, field1 group ++ field2 budget ++ field1 failureLimit)
  | .setGroupTimes tag group refresh rechallenge =>
      some (8, tag, field1 group ++ field2 refresh ++ field2 rechallenge)
  | .stagedHalf tag half context first second =>
      some (9, tag, field2 (32768 * halfBit half + context) ++ wordField first ++ wordField second)
  | .openCall tag context position loopFlag =>
      some (10, tag, field2 context ++ field2 position ++ field1 loopFlag)
  | .closeCall tag context => some (11, tag, field2 context)
  | .setPositionTreatment tag position treatment toneChannel =>
      some (12, tag, field2 position ++ field1 treatment ++ field1 toneChannel)
  | .setPositionGain tag position direction gain =>
      some (13, tag, field2 position ++ field1 direction ++ field2 gain)
  | .loadPattern tag address c0 c1 c2 c3 => some (14, tag, field2 address ++ [c0, c1, c2, c3])
  | .setPlayout tag channel repeats mode start length =>
      some (15, tag, field1 channel ++ field1 repeats ++ field2 (16384 * mode + start) ++ field2 length)
  | .stopPlayout tag channel => some (16, tag, field1 channel)
  | .setDevice tag setting value => some (17, tag, field1 setting ++ field2 value)
  | .read tag page index part => some (18, tag, field1 page ++ field2 index ++ field1 part)
  | .restartCalls tag scope => some (19, tag, field1 scope)
  | .restartAll tag => some (19, tag, field1 2)
  | _ => none

/-- The eight bytes of a management cell, unused bytes 0 (R174); `none` for a command that is no management cell. -/
def encodeManagementCell (i : Instr) : Option (List Byte) :=
  (managementPayload i).map (fun p => eightBytes (field1 p.1 ++ [p.2.1] ++ p.2.2))

/-- The eight bytes of a line cell with its highway, unused bytes 0 (R174, R176); `none` for a command that is no line
cell. -/
def encodeLineCell : Instr → Option (Fin 4 × List Byte)
  | .lineIdle h => some (h, eightBytes [])
  | .lineCellDiscarded h kind slot => some (h, eightBytes (field1 kind ++ field1 slot))
  | .signOn h slot identity => some (h, eightBytes (field1 1 ++ field1 slot ++ field4 identity))
  | .answer h slot r => some (h, eightBytes (field1 2 ++ field1 slot ++ [r.b1, r.b2, r.b3, r.b4]))
  | .keepalive h slot => some (h, eightBytes (field1 3 ++ field1 slot))
  | .signOff h slot => some (h, eightBytes (field1 4 ++ field1 slot))
  | _ => none

end Sys2Proof
end

