-- ==== Sys2Proof/Machine/Table.lean ====
section
/-! DEFINITION. The tables of the 4120 as sparse lists in one canonical form, and Pattern Memory as the table of its
bytes. A table of records that all start from one reset record lists, in rising order of index, the records that differ
from it; an unlisted index reads as the reset record. Equal tables are then equal data. -/

namespace Sys2Proof.Machine

/-- Records by index; an unlisted index holds the table's reset record. -/
abbrev Table (α : Type) := List (Nat × α)

/-- The record at an index; `d` is the table's reset record. -/
def Table.get {α : Type} (d : α) : Table α → Nat → α
  | [], _ => d
  | (k, v) :: rest, i => if k = i then v else Table.get d rest i

/-- The table without any entry for one index. -/
def Table.erase {α : Type} (t : Table α) (i : Nat) : Table α :=
  t.filter (fun e => decide (e.1 ≠ i))

/-- Puts an entry before the first entry of a greater index. -/
def Table.insert {α : Type} : Table α → Nat → α → Table α
  | [], i, v => [(i, v)]
  | (k, w) :: rest, i, v => if i < k then (i, v) :: (k, w) :: rest else (k, w) :: Table.insert rest i v

/-- Writes one record, keeping the canonical form: a record equal to the reset record is not listed. -/
def Table.set {α : Type} [DecidableEq α] (d : α) (t : Table α) (i : Nat) (v : α) : Table α :=
  if v = d then Table.erase t i else Table.insert (Table.erase t i) i v

/-- Applies one change to every record, for a change that leaves the reset record as it is. -/
def Table.mapAll {α : Type} [DecidableEq α] (d : α) (f : α → α) (t : Table α) : Table α :=
  (t.map (fun e => (e.1, f e.2))).filter (fun e => decide (e.2 ≠ d))

/-- The indices a table lists. -/
def Table.indices {α : Type} (t : Table α) : List Nat :=
  t.map Prod.fst

/-- The canonical form: indices strictly rising and below `n`, and no reset record listed. -/
def Table.wf {α : Type} [DecidableEq α] (n : Nat) (d : α) : Table α → Bool
  | [] => true
  | (k, v) :: rest =>
      decide (k < n) && decide (v ≠ d) && rest.all (fun e => decide (k < e.1)) && Table.wf n d rest

/-- Pattern Memory: the (address, code) pairs that differ from the reset contents (R155). -/
abbrev Memory := Table Byte

/-- What an unlisted address of Pattern Memory reads as: the spec's reset contents, 255 at every address (R155). -/
def Memory.unlisted : Byte := 255

/-- The code at an address of Pattern Memory. -/
def Memory.read (m : Memory) (address : Nat) : Byte :=
  Table.get Memory.unlisted m address

/-- Writes one code of Pattern Memory. -/
def Memory.write (m : Memory) (address : Nat) (code : Byte) : Memory :=
  Table.set Memory.unlisted m address code

/-- The canonical form of Pattern Memory, whose addresses are 0 to 8191 (R155). -/
def Memory.wf (m : Memory) : Bool :=
  Table.wf 8192 Memory.unlisted m

end Sys2Proof.Machine
end

