-- ==== Sys2Proof/Machine/State.lean ====
section
/-! DEFINITION. The state of the 4120: every table, queue, buffer, setting, count and pin the manual gives the part,
as plain data, with the reset value of each, and the commands that wait. Records whose fields the manual calls
"present while" another field stands (the call of an OPEN context, the answer deadline of an AWAITING candidate) hold
those fields inside that alternative. -/

namespace Sys2Proof.Machine

/-- Why a step stops with a fault. Nothing in the manual stops the part, so no reason exists: every command of the
model answers a next state. Safe: no run is cut off. -/
inductive Fault where
  deriving DecidableEq, Repr

/-- Why a command has no meaning. -/
inductive Refusal where
  /-- Raised only by an arm of `exec` whose command has not been given its meaning yet; no arm is. Safe. -/
  | notModelled (mnemonic : String)
  deriving DecidableEq, Repr

/-! ### Position Table (R32, R33) -/

/-- A requested treatment, in the order of the codes of R174. -/
inductive Treatment where
  | clear
  | mute
  | tone
  | lineLoop
  | switchLoop
  deriving DecidableEq, Repr

/-- One record of the Position Table (R32), with its hardware reset values (R33), and the codes and events of the frame
in progress in the position's slots. -/
structure Position where
  /-- requested treatment -/
  requested : Treatment := .clear
  /-- tone channel, 0 to 15 -/
  toneChannel : Nat := 0
  /-- up gain, 0 to 512 -/
  upGain : Nat := 256
  /-- down gain, 0 to 512 -/
  downGain : Nat := 256
  /-- owner, an entry index -/
  owner : Option Nat := none
  /-- pending, an entry index -/
  pending : Option Nat := none
  /-- context, a context index -/
  context : Option Nat := none
  /-- attempt count, 0 to 10 -/
  attempts : Nat := 0
  /-- hold-off deadline -/
  holdOff : Option FrameNumber := none
  /-- up clamp count, 0 to 65535 -/
  upClamps : Nat := 0
  /-- down clamp count, 0 to 65535 -/
  downClamps : Nat := 0
  /-- hold sample -/
  hold : Byte := 255
  /-- switch-side waiting code (R34) -/
  switchWaiting : Byte := 255
  /-- line-side waiting code (R34) -/
  lineWaiting : Byte := 255
  /-- the code last driven in the position's slot of Sh (R4, R139) -/
  switchSending : Byte := 255
  /-- the code last driven in the position's slot of Lh (R4) -/
  lineSending : Byte := 255
  /-- whether the upstream arrival of the frame in progress has been processed (R35, R37) -/
  upTaken : Bool := false
  /-- whether the downstream arrival of the frame in progress has been processed (R35) -/
  downTaken : Bool := false
  /-- whether the slot of Sh has been driven in the frame in progress (R34) -/
  switchDriven : Bool := false
  /-- whether the slot of Lh has been driven in the frame in progress (R34) -/
  lineDriven : Bool := false
  deriving DecidableEq, Repr

/-! ### Extension Table and Group Table (R52, R53, R65, R75) -/

/-- The states of an entry, numbered in this order on the READ page (R54, R177). -/
inductive EntryState where
  | unloaded
  | absent
  | admitted
  | barred
  deriving DecidableEq, Repr

/-- The kinds of candidate (R75). -/
inductive CandidateKind where
  | first
  | move
  | renew
  deriving DecidableEq, Repr

/-- The stage of a candidate; the answer deadline is present exactly while it is AWAITING (R75). -/
inductive Stage where
  | awaiting (deadline : FrameNumber)
  | queued
  deriving DecidableEq, Repr

/-- A sign-on attempt in progress (R75). -/
structure Candidate where
  position : Nat
  kind : CandidateKind
  challenge : FrameNumber
  stage : Stage
  deriving DecidableEq, Repr

/-- One entry of the Extension Table (R52) with its hardware reset values (R53). -/
structure Entry where
  state : EntryState := .unloaded
  /-- identity, 0 to 99,999,999 -/
  identity : Nat := 0
  /-- group, 0 to 15 -/
  group : Nat := 0
  secret : Option Key := none
  /-- home, a position -/
  home : Option Nat := none
  candidate : Option Candidate := none
  /-- refresh deadline -/
  refresh : Option SecondNumber := none
  /-- re-challenge deadline -/
  rechallenge : Option SecondNumber := none
  /-- failure count, 0 to 7 -/
  failures : Nat := 0
  /-- context, a context index -/
  context : Option Nat := none
  deriving DecidableEq, Repr

/-- One record of the Group Table with its hardware reset values (R65). -/
structure Group where
  /-- budget, 0 to 256 -/
  budget : Nat := 256
  /-- in-use, 0 to 256 -/
  inUse : Nat := 0
  /-- refresh interval, 1 to 4095 seconds -/
  refresh : Nat := 300
  /-- re-challenge interval, 0 or 1 to 32767 seconds -/
  rechallenge : Nat := 0
  /-- failure limit, 1 to 7 -/
  failureLimit : Nat := 3
  deriving DecidableEq, Repr

/-! ### Verification Queue and in-flight set (R92, R29) -/

/-- An item of the Verification Queue (R92). -/
structure VerifyItem where
  entry : Nat
  position : Nat
  challenge : FrameNumber
  response : Response
  /-- the void mark -/
  isVoid : Bool
  deriving DecidableEq, Repr

/-- The outcome of a verification (R26). -/
inductive Verdict where
  | matched
  | mismatch
  | notReady
  deriving DecidableEq, Repr

/-- An item of the in-flight set, with the outcome decided when it was taken (R29). -/
structure FlightItem where
  item : VerifyItem
  verdict : Verdict
  deriving DecidableEq, Repr

/-! ### Call Context Table (R114, R115) -/

/-- The receive states, numbered in this order on the READ page (R114, R177). -/
inductive SyncState where
  | hunt
  | aligned
  | freewheel
  | keyWait
  deriving DecidableEq, Repr

/-- The fields of a context that are present while it is OPEN (R114). -/
structure Call where
  position : Nat
  entry : Nat
  txKey : Key
  rxKey : Key
  deriving DecidableEq, Repr

/-- A staged key with its two taken marks (R114, R124). -/
structure StagedKey where
  key : Key
  txTaken : Bool
  rxTaken : Bool
  deriving DecidableEq, Repr

/-- A code of the Burst Window with its is-burst mark (R141). -/
structure WindowCode where
  code : Byte
  isBurst : Bool
  deriving DecidableEq, Repr

/-- One record of the Call Context Table with its hardware reset values (R114, R115). The state is OPEN while `call`
is present and FREE while it is absent. -/
structure Context where
  call : Option Call := none
  /-- loop: CONTEXT LOOP when true -/
  loop : Bool := false
  txGeneration : Generation := 0
  txFrame : FrameNumber := 0
  /-- the skip-reported flag -/
  skipReported : Bool := false
  rxGeneration : Generation := 0
  rxFrame : FrameNumber := 0
  sync : SyncState := .hunt
  /-- miss count, 0 to 7 -/
  misses : Nat := 0
  /-- slip count, 0 to 255 -/
  slips : Nat := 0
  /-- the Burst Window, oldest first, at most eight codes -/
  window : List WindowCode := []
  staged : Option StagedKey := none
  deriving DecidableEq, Repr

/-! ### Playout channels (R157) -/

/-- Playout modes, in the order of their codes (R174). -/
inductive PlayoutMode where
  | advance
  | fixed
  deriving DecidableEq, Repr

/-- Playout statuses, in the order of their codes (R175). -/
inductive PlayoutStatus where
  | stopped
  | running
  | countDone
  deriving DecidableEq, Repr

/-- Repeats remaining: endless, or a count (R157). -/
inductive Repeats where
  | endless
  | count (n : Nat)
  deriving DecidableEq, Repr

/-- One playout channel with its hardware reset values (R157). -/
structure Channel where
  start : Nat := 0
  length : Nat := 1
  position : Nat := 0
  repeats : Repeats := .endless
  mode : PlayoutMode := .advance
  status : PlayoutStatus := .stopped
  deriving DecidableEq, Repr

/-! ### Line Reply Queues (R71, R73, R74) -/

/-- The reasons of a REJECT, in the order of their codes (R71, R176). -/
inductive RejectReason where
  | busy
  | unknown
  | barred
  | notReady
  | noChallenge
  | timeout
  | failed
  | notSignedOn
  deriving DecidableEq, Repr

/-- The causes of a LAPSED line cell, in the order of their codes (R71, R176). -/
inductive LineLapseCause where
  | signedOff
  | moved
  | timeout
  | forced
  deriving DecidableEq, Repr

/-- What an outbound line cell says to the telephone it names (R71). -/
inductive LineReply where
  | challenge (number : FrameNumber)
  | welcome (interval : Nat)
  | wait (frames : Nat)
  | reject (reason : RejectReason) (frames : Nat)
  | lapsed (cause : LineLapseCause)
  deriving DecidableEq, Repr

/-- An outbound line cell (R71). -/
inductive LineCell where
  | idle
  | reply (slot : Nat) (reply : LineReply)
  deriving DecidableEq, Repr

/-- What one line-side highway holds: its Line Reply Queue, its Drop Count, and the cell taken for the frame in
progress, which is kept for sending again when that frame is cut short (R7, R73, R74). -/
structure Highway where
  /-- the Line Reply Queue, oldest first, at most 16 cells -/
  queue : List LineCell := []
  /-- the Drop Count, 0 to 65535 -/
  drops : Nat := 0
  sending : LineCell := .idle
  deriving DecidableEq, Repr

/-! ### Control Channel, reports and settings (R165 to R175) -/

/-- Why a management cell is refused, in the order of the codes of R165. -/
inductive Reason where
  | unknownKind
  | badIndex
  | badValue
  | inUse
  | duplicate
  | notLoaded
  | notBarred
  | notAdmitted
  | groupFull
  | noKey
  | stagedBusy
  | looped
  | inCall
  | positionBusy
  deriving DecidableEq, Repr

/-- The management cells whose ACCEPTED carries an entry and nothing else (R165). -/
inductive EntryCommand where
  | loadExtension
  | unloadExtension
  | forceSignOff
  | bar
  | unbar
  deriving DecidableEq, Repr

/-- The direction of a SET POSITION GAIN, in the order of its codes (R50, R174). -/
inductive Direction where
  | up
  | down
  | both
  deriving DecidableEq, Repr

/-- The scope of a RESTART, in the order of its codes (R170, R174). -/
inductive Scope where
  | calls
  | all
  deriving DecidableEq, Repr

/-- The values an ACCEPTED answer carries, by the cell it answers (R165). -/
inductive Accepted where
  | entryCommand (command : EntryCommand) (entry : Nat)
  | secretHalf (entry : Nat) (half : Half) (complete : Bool)
  | stagedHalf (context : Nat) (half : Half) (complete : Bool)
  | setGroupLimits (group budget failureLimit : Nat)
  | setGroupTimes (group refresh rechallenge : Nat)
  | openCall (context position entry : Nat)
  | closeCall (context : Nat) (wasOpen : Bool)
  | setPositionTreatment (position : Nat)
  | setPositionGain (position : Nat) (direction : Direction) (gain : Nat)
  | loadPattern (address : Nat)
  | setPlayout (channel length : Nat)
  | stopPlayout (channel : Nat) (before : PlayoutStatus)
  | setDevice (setting value : Nat)
  | restart (scope : Scope)
  deriving DecidableEq, Repr

/-- The causes of CALL CLOSED, in the order of their codes (R175). -/
inductive CloseCause where
  | requested
  | signedOff
  | lapsed
  | renewTimeout
  | renewFailed
  | displaced
  | moved
  | barred
  | unloaded
  deriving DecidableEq, Repr

/-- The causes of KEY MISS, in the order of their codes (R149, R175). -/
inductive KeyMissCause where
  | noKey
  | skipped
  deriving DecidableEq, Repr

/-- The reasons of TX REKEY SKIPPED, in the order of their codes (R134, R175). -/
inductive SkipReason where
  | noKey
  | notReceived
  deriving DecidableEq, Repr

/-- The causes of the LAPSED report, in the order of their codes (R113, R175). -/
inductive ReportLapseCause where
  | timeout
  | renewTimeout
  deriving DecidableEq, Repr

/-- The reasons of REJECTED, in the order of their codes (R113, R175). -/
inductive RejectedReason where
  | failed
  | notReady
  deriving DecidableEq, Repr

/-- The result field of REJECTED, numbered from 0 (R175); which of the last two is given where both hold is assumption 20. -/
inductive RejectedResult where
  | noChange
  | admissionEnded
  | nowBarred
  deriving DecidableEq, Repr

/-- The target of a half in the Pair Buffer (R166). -/
inductive PairTarget where
  | secret (entry : Nat)
  | stagedKey (context : Nat)
  deriving DecidableEq, Repr

/-- The report kinds whose level a setting gives, in the order of their codes 17 to 36 (R168, R171). -/
inductive ReportKind where
  | restarted
  | syncLost
  | keyMiss
  | pairBroken
  | barred
  | callClosed
  | stagedTaken
  | lapsed
  | displaced
  | moved
  | rejected
  | admitted
  | signedOff
  | unknownIdentity
  | slip
  | txRekeySkipped
  | syncAligned
  | txRekeyed
  | rxRekeyed
  | playoutDone
  deriving DecidableEq, Repr

/-- A report other than STARTED, with the fields of R175. -/
inductive Report where
  | restarted (scope : Scope) (closed : Nat)
  | syncLost (context position misses : Nat)
  | keyMiss (context position : Nat) (cause : KeyMissCause) (carried rx : Generation)
  | pairBroken (target : PairTarget) (half : Half)
  | barred (entry position failures : Nat)
  | callClosed (context position entry : Nat) (cause : CloseCause)
  | stagedTaken (context position : Nat) (generation : Generation)
  | lapsed (entry position : Nat) (cause : ReportLapseCause)
  | displaced (entry position byEntry : Nat)
  | moved (entry oldHome newHome : Nat)
  | rejected (entry position : Nat) (kind : CandidateKind) (reason : RejectedReason) (result : RejectedResult)
  | admitted (entry position : Nat) (renew : Bool)
  | signedOff (entry position : Nat)
  | unknownIdentity (identity position : Nat)
  | slip (context : Nat) (before start : FrameNumber) (slips : Nat)
  | txRekeySkipped (context position : Nat) (generation : Generation) (frame : FrameNumber) (reason : SkipReason)
  | syncAligned (context position : Nat) (frame : FrameNumber) (generation : Generation)
  | txRekeyed (context position : Nat) (generation : Generation) (frame : FrameNumber)
  | rxRekeyed (context position : Nat) (generation : Generation) (frame : FrameNumber)
  | playoutDone (channel start length : Nat)
  deriving DecidableEq, Repr

/-- An outbound management cell (R171, R175). A REFUSED carries the code of the cell it answers as it came, since the
kind may be unknown. -/
inductive OutCell where
  | idle
  | accepted (tag : Byte) (values : Accepted)
  | refused (tag : Byte) (kind : Nat) (reason : Reason)
  | answer (tag : Byte) (page : List Byte)
  | started
  | report (r : Report)
  deriving DecidableEq, Repr

/-- A cell of the Report Queue with the level it joined at (R171). -/
structure QueuedCell where
  level : Nat
  cell : OutCell
  deriving DecidableEq, Repr

/-- The record of the Pair Buffer: the target, the half held and its two words (R166). -/
structure PairHalf where
  target : PairTarget
  half : Half
  first : KeyWord
  second : KeyWord
  deriving DecidableEq, Repr

/-- The Settings with their defaults (R168, R171). `levels` holds the level of each report kind in the order of the
codes 17 to 36. -/
structure Settings where
  syncSpan : Nat := 1024
  rekeyMultiple : Nat := 0
  missLimit : Nat := 3
  answerWindow : Nat := 16000
  baseHoldOff : Nat := 64
  challengeTone : Option Nat := none
  securingTone : Option Nat := none
  keyMissTone : Option Nat := none
  levels : Vector Nat 20 := #v[0, 1, 1, 1, 2, 2, 2, 3, 3, 3, 3, 4, 4, 5, 5, 5, 6, 6, 6, 6]
  deriving DecidableEq, Repr

/-! ### Frames -/

/-- Whether a frame is in progress: no frame pulse has come since the hardware reset, the pulses are coming, or the
pulse is absent (R2, R13, R14). -/
inductive Pulse where
  | awaiting
  | running
  | absent (loss : PulseLoss)
  deriving DecidableEq, Repr

/-- What the last frame boundary still has to bring about. The spec lets the events of one boundary be taken in any
order; each of them is here until it has been taken, and is taken once (assumption 2). -/
structure Boundary where
  /-- the boundary cut the frame before it short (R2) -/
  cutShort : Bool := false
  /-- the Frame Prescale would have reached 8000 and the Second Count has not advanced yet (R9) -/
  secondDue : Bool := false
  /-- the Mixing Unit has not taken its items yet (R28) -/
  takeDue : Bool := false
  /-- the outbound management cell has not been taken yet (R7) -/
  reportDue : Bool := false
  /-- the highways whose outbound line cell has not been taken yet (R7) -/
  lineDue : List Nat := []
  /-- the playout channels RUNNING at the boundary that have not had their advance yet (R160) -/
  playoutDue : List Nat := []
  /-- the contexts, OPEN at the boundary, whose transmit side has not advanced yet (R130) -/
  txDue : List Nat := []
  /-- the positions whose supplied upstream arrival has not been processed yet (R2) -/
  suppliedUp : List Nat := []
  /-- the positions whose supplied downstream arrival has not been processed yet (R2) -/
  suppliedDown : List Nat := []
  deriving DecidableEq, Repr

/-- The state of the block. -/
structure State where
  /-- the commands that wait, first in first out -/
  pending : List Instr
  /-- Frame Count (R8) -/
  frameCount : FrameNumber
  /-- Frame Prescale, 0 to 7999 (R9) -/
  framePrescale : Nat
  /-- Second Count (R9) -/
  secondCount : SecondNumber
  pulse : Pulse
  boundary : Boundary
  /-- Position Table, 480 records (R32) -/
  positions : Table Position
  /-- Extension Table, 1024 entries (R52) -/
  entries : Table Entry
  /-- Group Table, 16 records (R65) -/
  groups : Table Group
  /-- Call Context Table, 256 records (R114) -/
  contexts : Table Context
  /-- playout channels, 16 records (R157) -/
  channels : Table Channel
  /-- the four line-side highways (R73) -/
  highways : Table Highway
  /-- the contexts for which the Mixing Unit holds two outputs of the frame in progress (R27) -/
  reserved : List Nat
  /-- the in-flight set: items taken at the last boundary (R29) -/
  inFlight : List FlightItem
  /-- the in-flight items of the boundary before, which complete at the last boundary (R30) -/
  completing : List FlightItem
  /-- Verification Queue, oldest first, at most 32 items (R92) -/
  verifyQueue : List VerifyItem
  /-- Verification Pause (R94) -/
  verifyPause : Bool
  /-- Pattern Memory (R155) -/
  pattern : Memory
  /-- Pair Buffer (R166) -/
  pairBuffer : Option PairHalf
  /-- Settings (R168) -/
  settings : Settings
  /-- Report Queue, in the order of joining, at most 64 cells (R171) -/
  reportQueue : List QueuedCell
  /-- Report Pause (R173) -/
  reportPause : Bool
  /-- Lost Reports, 0 to 65535 (R172) -/
  lostReports : Nat
  /-- the management cell taken for the frame in progress (R7) -/
  reportSending : OutCell
  /-- the model's own counter of the free bytes given out (assumption 9) -/
  freeCount : Nat
  deriving DecidableEq, Repr

/-- The machine right after a hardware reset: every field at the value the manual gives it, the STARTED report queued
at level 0, and no frame pulse yet (R14, R33, R53, R65, R74, R93, R115, R155, R157, R166, R168, R171). -/
def State.reset : State where
  pending := []
  frameCount := 0
  framePrescale := 0
  secondCount := 0
  pulse := .awaiting
  boundary := {}
  positions := []
  entries := []
  groups := []
  contexts := []
  channels := []
  highways := []
  reserved := []
  inFlight := []
  completing := []
  verifyQueue := []
  verifyPause := false
  pattern := []
  pairBuffer := none
  settings := {}
  reportQueue := [⟨0, .started⟩]
  reportPause := false
  lostReports := 0
  reportSending := .idle
  freeCount := 0

end Sys2Proof.Machine
end

