-- ==== Sys2Proof/Machine/Flags.lean ====
section
/-! DEFINITION. Saturating counts and the two pause flags. -/

namespace Sys2Proof.Machine

/-- A count that advances by one and stays at its upper end (manual section 2.1). -/
def saturatingNext (limit count : Nat) : Nat :=
  min limit (count + 1)

/-- The Verification Pause after an append that leaves `count` items: set at 24, else as it stood (R94). -/
def verifyPauseAfterAppend (pause : Bool) (count : Nat) : Bool :=
  pause || decide (count = 24)

/-- The Verification Pause after a take that leaves `count` items: clear at 8 or fewer, else as it stood (R94). -/
def verifyPauseAfterTake (pause : Bool) (count : Nat) : Bool :=
  pause && decide (8 < count)

/-- The Report Pause after a join that leaves `count` cells: set at 48, else as it stood (R173). -/
def reportPauseAfterJoin (pause : Bool) (count : Nat) : Bool :=
  pause || decide (count = 48)

/-- The Report Pause after a take that leaves `count` cells: clear at 16, else as it stood (R173). -/
def reportPauseAfterTake (pause : Bool) (count : Nat) : Bool :=
  pause && decide (count ≠ 16)

end Sys2Proof.Machine
end

