-- ==== Sys2Proof/Machine/Operands.lean ====
section
/-! DEFINITION. The codes by which cells name things (R165, R168, R171, R174 to R177), and the byte layouts of the
outbound cells. -/

namespace Sys2Proof.Machine

/-! ### Codes of inbound fields (R174) -/

/-- The treatment a code names (R174). -/
def treatmentOfCode : Nat → Option Treatment
  | 0 => some .clear
  | 1 => some .mute
  | 2 => some .tone
  | 3 => some .lineLoop
  | 4 => some .switchLoop
  | _ => none

/-- The code of a treatment (R174, R177). -/
def Treatment.code : Treatment → Nat
  | .clear => 0
  | .mute => 1
  | .tone => 2
  | .lineLoop => 3
  | .switchLoop => 4

/-- The direction a code names (R174). -/
def directionOfCode : Nat → Option Direction
  | 1 => some .up
  | 2 => some .down
  | 3 => some .both
  | _ => none

/-- The code of a direction (R174). -/
def Direction.code : Direction → Nat
  | .up => 1
  | .down => 2
  | .both => 3

/-- The playout mode a code names (R174). -/
def modeOfCode : Nat → Option PlayoutMode
  | 0 => some .advance
  | 1 => some .fixed
  | _ => none

/-- The loop flag a code names: off, or CONTEXT LOOP (R174). -/
def loopOfCode : Nat → Option Bool
  | 0 => some false
  | 1 => some true
  | _ => none

/-- The code of a half (R174). -/
def halfCode : Half → Nat
  | .low => 0
  | .high => 1

/-- The scope a code names (R174). -/
def scopeOfCode : Nat → Option Scope
  | 1 => some .calls
  | 2 => some .all
  | _ => none

/-- The code of a scope (R174). -/
def Scope.code : Scope → Nat
  | .calls => 1
  | .all => 2

/-- A flag as a field. -/
def flagCode (b : Bool) : Nat := if b then 1 else 0

/-! ### Report kinds (R168, R171) -/

/-- The place of a report kind among the level settings: its code less 17 (R168, R171). -/
def ReportKind.place : ReportKind → Fin 20
  | .restarted => 0
  | .syncLost => 1
  | .keyMiss => 2
  | .pairBroken => 3
  | .barred => 4
  | .callClosed => 5
  | .stagedTaken => 6
  | .lapsed => 7
  | .displaced => 8
  | .moved => 9
  | .rejected => 10
  | .admitted => 11
  | .signedOff => 12
  | .unknownIdentity => 13
  | .slip => 14
  | .txRekeySkipped => 15
  | .syncAligned => 16
  | .txRekeyed => 17
  | .rxRekeyed => 18
  | .playoutDone => 19

/-- The code of a report kind (R171). -/
def ReportKind.code (k : ReportKind) : Nat := k.place.val + 17

/-- The kind of a report. -/
def Report.kind : Report → ReportKind
  | .restarted .. => .restarted
  | .syncLost .. => .syncLost
  | .keyMiss .. => .keyMiss
  | .pairBroken .. => .pairBroken
  | .barred .. => .barred
  | .callClosed .. => .callClosed
  | .stagedTaken .. => .stagedTaken
  | .lapsed .. => .lapsed
  | .displaced .. => .displaced
  | .moved .. => .moved
  | .rejected .. => .rejected
  | .admitted .. => .admitted
  | .signedOff .. => .signedOff
  | .unknownIdentity .. => .unknownIdentity
  | .slip .. => .slip
  | .txRekeySkipped .. => .txRekeySkipped
  | .syncAligned .. => .syncAligned
  | .txRekeyed .. => .txRekeyed
  | .rxRekeyed .. => .rxRekeyed
  | .playoutDone .. => .playoutDone

/-- The level the Settings give a report kind (R168, R171). -/
def Settings.level (settings : Settings) (k : ReportKind) : Nat :=
  settings.levels[k.place]

/-! ### Codes of outbound fields (R165, R175 to R177) -/

/-- The code of a refusal reason (R165). -/
def Reason.code : Reason → Nat
  | .unknownKind => 1
  | .badIndex => 2
  | .badValue => 3
  | .inUse => 4
  | .duplicate => 5
  | .notLoaded => 6
  | .notBarred => 7
  | .notAdmitted => 8
  | .groupFull => 9
  | .noKey => 10
  | .stagedBusy => 11
  | .looped => 12
  | .inCall => 13
  | .positionBusy => 14

/-- The kind code of a management cell answered with its entry alone (R174). -/
def EntryCommand.code : EntryCommand → Nat
  | .loadExtension => 1
  | .unloadExtension => 2
  | .forceSignOff => 4
  | .bar => 5
  | .unbar => 6

/-- The kind code of the cell an ACCEPTED answers (R174, R175). -/
def Accepted.kindCode : Accepted → Nat
  | .entryCommand command _ => command.code
  | .secretHalf .. => 3
  | .setGroupLimits .. => 7
  | .setGroupTimes .. => 8
  | .stagedHalf .. => 9
  | .openCall .. => 10
  | .closeCall .. => 11
  | .setPositionTreatment .. => 12
  | .setPositionGain .. => 13
  | .loadPattern .. => 14
  | .setPlayout .. => 15
  | .stopPlayout .. => 16
  | .setDevice .. => 17
  | .restart .. => 19

/-- The code of a playout status (R175, R177). -/
def PlayoutStatus.code : PlayoutStatus → Nat
  | .stopped => 0
  | .running => 1
  | .countDone => 2

/-- The code of a playout mode (R174, R177). -/
def PlayoutMode.code : PlayoutMode → Nat
  | .advance => 0
  | .fixed => 1

/-- The code of an entry state (R177). -/
def EntryState.code : EntryState → Nat
  | .unloaded => 0
  | .absent => 1
  | .admitted => 2
  | .barred => 3

/-- The code of a candidate kind (R175, R177). -/
def CandidateKind.code : CandidateKind → Nat
  | .first => 1
  | .move => 2
  | .renew => 3

/-- The code of a receive state (R177). -/
def SyncState.code : SyncState → Nat
  | .hunt => 0
  | .aligned => 1
  | .freewheel => 2
  | .keyWait => 3

/-- The code of a cause of CALL CLOSED (R175). -/
def CloseCause.code : CloseCause → Nat
  | .requested => 1
  | .signedOff => 2
  | .lapsed => 3
  | .renewTimeout => 4
  | .renewFailed => 5
  | .displaced => 6
  | .moved => 7
  | .barred => 8
  | .unloaded => 9

/-- The code of a cause of KEY MISS (R175). -/
def KeyMissCause.code : KeyMissCause → Nat
  | .noKey => 1
  | .skipped => 2

/-- The code of a reason of TX REKEY SKIPPED (R175). -/
def SkipReason.code : SkipReason → Nat
  | .noKey => 1
  | .notReceived => 2

/-- The code of a cause of the LAPSED report (R175). -/
def ReportLapseCause.code : ReportLapseCause → Nat
  | .timeout => 1
  | .renewTimeout => 2

/-- The code of a reason of REJECTED (R175). -/
def RejectedReason.code : RejectedReason → Nat
  | .failed => 1
  | .notReady => 2

/-- The code of the result of REJECTED (R175). -/
def RejectedResult.code : RejectedResult → Nat
  | .noChange => 0
  | .admissionEnded => 1
  | .nowBarred => 2

/-- The code of a REJECT reason (R176). -/
def RejectReason.code : RejectReason → Nat
  | .busy => 1
  | .unknown => 2
  | .barred => 3
  | .notReady => 4
  | .noChallenge => 5
  | .timeout => 6
  | .failed => 7
  | .notSignedOn => 8

/-- The code of a cause of a LAPSED line cell (R176). -/
def LineLapseCause.code : LineLapseCause → Nat
  | .signedOff => 1
  | .moved => 2
  | .timeout => 3
  | .forced => 4

/-! ### Layouts of the outbound cells (R175, R176) -/

/-- Bytes 3 to 7 of an ACCEPTED (R175). -/
def Accepted.bytes : Accepted → List Byte
  | .entryCommand _ entry => field2 entry
  | .secretHalf entry half complete => field2 entry ++ field1 (halfCode half) ++ field1 (flagCode complete)
  | .stagedHalf context half complete => field1 context ++ field1 (halfCode half) ++ field1 (flagCode complete)
  | .setGroupLimits group budget failureLimit => field1 group ++ field2 budget ++ field1 failureLimit
  | .setGroupTimes group refresh rechallenge => field1 group ++ field2 refresh ++ field2 rechallenge
  | .openCall context position entry => field1 context ++ field2 position ++ field2 entry
  | .closeCall context wasOpen => field1 context ++ field1 (flagCode wasOpen)
  | .setPositionTreatment position => field2 position
  | .setPositionGain position direction gain => field2 position ++ field1 direction.code ++ field2 gain
  | .loadPattern address => field2 address
  | .setPlayout channel length => field1 channel ++ field2 length
  | .stopPlayout channel before => field1 channel ++ field1 before.code
  | .setDevice setting value => field1 setting ++ field2 value
  | .restart scope => field1 scope.code

/-- A frame number that is a multiple of 256, divided by 256 (R174). -/
def fieldFrameOver256 (n : FrameNumber) : List Byte := field2 (n.toNat / 256)

/-- Bytes 1 to 7 of a report (R175). -/
def Report.bytes : Report → List Byte
  | .restarted scope closed => field1 scope.code ++ field2 closed
  | .syncLost context position misses => field1 context ++ field2 position ++ field1 misses
  | .keyMiss context position cause carried rx =>
      field1 context ++ field2 position ++ field1 cause.code ++ field1 carried.toNat ++ field1 rx.toNat
  | .pairBroken (.secret entry) half => field1 1 ++ field2 entry ++ field1 (halfCode half)
  | .pairBroken (.stagedKey context) half => field1 2 ++ field2 context ++ field1 (halfCode half)
  | .barred entry position failures => field2 entry ++ field2 position ++ field1 failures
  | .callClosed context position entry cause =>
      field1 context ++ field2 position ++ field2 entry ++ field1 cause.code
  | .stagedTaken context position generation => field1 context ++ field2 position ++ field1 generation.toNat
  | .lapsed entry position cause => field2 entry ++ field2 position ++ field1 cause.code
  | .displaced entry position byEntry => field2 entry ++ field2 position ++ field2 byEntry
  | .moved entry oldHome newHome => field2 entry ++ field2 oldHome ++ field2 newHome
  | .rejected entry position kind reason result =>
      field2 entry ++ field2 position ++ field1 kind.code ++ field1 reason.code ++ field1 result.code
  | .admitted entry position renew => field2 entry ++ field2 position ++ field1 (flagCode renew)
  | .signedOff entry position => field2 entry ++ field2 position
  | .unknownIdentity identity position => field4 identity ++ field2 position
  | .slip context before start slips =>
      field1 context ++ field3 before.toNat ++ fieldFrameOver256 start ++ field1 slips
  | .txRekeySkipped context position generation frame reason =>
      field1 context ++ field2 position ++ field1 generation.toNat ++ fieldFrameOver256 frame ++ field1 reason.code
  | .syncAligned context position frame generation =>
      field1 context ++ field2 position ++ field3 frame.toNat ++ field1 generation.toNat
  | .txRekeyed context position generation frame =>
      field1 context ++ field2 position ++ field1 generation.toNat ++ field3 frame.toNat
  | .rxRekeyed context position generation frame =>
      field1 context ++ field2 position ++ field1 generation.toNat ++ field3 frame.toNat
  | .playoutDone channel start length => field1 channel ++ field2 start ++ field2 length

/-- The eight bytes of an outbound management cell (R171, R175). -/
def OutCell.bytes : OutCell → List Byte
  | .idle => eightBytes []
  | .accepted tag values => eightBytes (field1 1 ++ [tag] ++ field1 values.kindCode ++ values.bytes)
  | .refused tag kind reason => eightBytes (field1 2 ++ [tag] ++ field1 kind ++ field1 reason.code)
  | .answer tag page => eightBytes (field1 3 ++ [tag] ++ page)
  | .started => eightBytes (field1 16)
  | .report r => eightBytes (field1 r.kind.code ++ r.bytes)

/-- The eight bytes of an outbound line cell (R176). -/
def LineCell.bytes : LineCell → List Byte
  | .idle => eightBytes []
  | .reply slot (.challenge number) => eightBytes (field1 1 ++ field1 slot ++ field3 number.toNat)
  | .reply slot (.welcome interval) => eightBytes (field1 2 ++ field1 slot ++ field2 interval)
  | .reply slot (.wait frames) => eightBytes (field1 3 ++ field1 slot ++ field3 frames)
  | .reply slot (.reject reason frames) =>
      eightBytes (field1 4 ++ field1 slot ++ field1 reason.code ++ field3 frames)
  | .reply slot (.lapsed cause) => eightBytes (field1 5 ++ field1 slot ++ field1 cause.code)

end Sys2Proof.Machine
end

