-- ==== Sys2Proof/Machine/Samples.lean ====
section
/-! DEFINITION. Sample arithmetic (chapter 2): decoding and encoding of codes, the gain stage, the keystream function,
scrambling, and the expected response of a verification. -/

namespace Sys2Proof.Machine

/-! ### Codes and linear values (R15, R16) -/

/-- The largest magnitude a code stands for (R15). -/
def fullScale : Nat := 8031

/-- The magnitude index of a code, 0 to 127 (R15). -/
def magnitudeIndex (c : Byte) : Nat :=
  127 - c.toNat % 128

/-- The magnitude of a magnitude index, from its chord and step (R15). -/
def indexMagnitude (q : Nat) : Nat :=
  (2 * (q % 16) + 33) * 2 ^ (q / 16) - 33

/-- The linear value of a code (R15). -/
def linearValue (c : Byte) : Int :=
  if 128 ≤ c.toNat then (indexMagnitude (magnitudeIndex c) : Int) else -(indexMagnitude (magnitudeIndex c) : Int)

/-- A linear value held within the range of the codes (R16, R20). -/
def clampLinear (l : Int) : Int :=
  max (-(fullScale : Int)) (min (fullScale : Int) l)

/-- The magnitude index that encodes a magnitude of at most 8031 (R16). -/
def encodeIndex (m : Nat) : Nat :=
  let chord := Nat.log2 (m + 33) - 5
  16 * chord + ((m + 33) / 2 ^ (chord + 1) - 16)

/-- The code of a linear value, after the encoder's own clamp (R16). -/
def encodeLinear (l : Int) : Byte :=
  let v := clampLinear l
  BitVec.ofNat 8 ((if 0 ≤ v then 255 else 127) - encodeIndex v.natAbs)

/-! ### The gain stage (R18 to R20) -/

/-- The product of a linear value and a gain divided by 256, an exact half rounded away from zero (R19). -/
def scaled (l : Int) (gain : Nat) : Int :=
  let p := l * (gain : Int)
  let m : Nat := (p.natAbs + 128) / 256
  if 0 ≤ p then (m : Int) else -(m : Int)

/-- Whether the gain stage replaces the scaled value by full scale and counts a clamp (R18, R20). -/
def gainClamps (gain : Nat) (c : Byte) : Bool :=
  decide (gain ≠ 256) && decide (fullScale < (scaled (linearValue c) gain).natAbs)

/-- The code that leaves the gain stage (R18 to R20). -/
def gainCode (gain : Nat) (c : Byte) : Byte :=
  if gain = 256 then c else encodeLinear (scaled (linearValue c) gain)

/-! ### The keystream function (R22 to R24) -/

/-- The prime of the keystream function (R22). -/
def keystreamPrime : Nat := 65521

/-- The keystream byte of a key at a frame number (R22). -/
def keystream (key : Key) (n : FrameNumber) : Byte :=
  let a := n.toNat % keystreamPrime
  let b := n.toNat / keystreamPrime
  let u := (a + key.k0.toNat) % keystreamPrime
  let m := key.k1.toNat % (keystreamPrime - 1) + 1
  let v := u * m % keystreamPrime
  let w := (v + key.k2.toNat + b * key.k3.toNat) % 65536
  BitVec.ofNat 8 (w % 256 + w / 256)

/-- Scrambling: the sum mod 256 of a clear code and a keystream byte (R23). -/
def scramble (c z : Byte) : Byte := c + z

/-- Descrambling: the difference mod 256 of a received code and a keystream byte (R24). -/
def descramble (s z : Byte) : Byte := s - z

/-! ### The admission response (R25, R26) -/

/-- The four bytes expected in answer to a challenge (R25). -/
def expectedResponse (secret : Key) (challenge : FrameNumber) : Response :=
  ⟨keystream secret challenge, keystream secret (challenge + 1), keystream secret (challenge + 2),
    keystream secret (challenge + 3)⟩

/-- The outcome of an item against the secret as it stands (R26). -/
def verdictOf (secret : Option Key) (item : VerifyItem) : Verdict :=
  match secret with
  | none => .notReady
  | some k => if expectedResponse k item.challenge = item.response then .matched else .mismatch

/-! ### The sync burst (R136, R137, R145) -/

/-- The check byte: the sum mod 256 of the seven bytes before it (R137). -/
def burstCheck (n0 : FrameNumber) (g : Generation) : Byte :=
  27 + 228 + BitVec.ofNat 8 (n0.toNat / 65536) + BitVec.ofNat 8 (n0.toNat / 256) + BitVec.ofNat 8 n0.toNat +
    g.setWidth 8 + 165

/-- The eight bytes of the burst that begins at frame number `n0` under generation `g` (R137). -/
def burstBytes (n0 : FrameNumber) (g : Generation) : List Byte :=
  [27, 228, BitVec.ofNat 8 (n0.toNat / 65536), BitVec.ofNat 8 (n0.toNat / 256), BitVec.ofNat 8 n0.toNat,
    g.setWidth 8, 165, burstCheck n0 g]

/-- A burst found in a Burst Window: the frame number and generation it carries (R145). -/
structure FoundBurst where
  n0 : FrameNumber
  generation : Generation
  deriving DecidableEq, Repr

/-- The valid burst a window of eight codes holds, oldest first, for a Sync Span (R145). -/
def findBurst (span : Nat) (window : List WindowCode) : Option FoundBurst :=
  match window with
  | [b1, b2, b3, b4, b5, b6, b7, b8] =>
      let n0 : Nat := b3.code.toNat * 65536 + b4.code.toNat * 256 + b5.code.toNat
      if b1.code = 27 ∧ b2.code = 228 ∧ b7.code = 165 ∧ b6.code.toNat < 4 ∧
          b8.code = b1.code + b2.code + b3.code + b4.code + b5.code + b6.code + b7.code ∧
          n0 % span = 0 ∧ window.all (fun w => !w.isBurst)
      then some ⟨BitVec.ofNat 24 n0, b6.code.setWidth 2⟩
      else none
  | _ => none

end Sys2Proof.Machine
end

