-- ==== Sys2Proof/Machine/Ops.lean ====
section
/-! DEFINITION. The named operations that the meanings share: access to the tables, deadlines, the Line Reply Queues and
the Report Queue, backoff, candidates, binding, and the close of a context. -/

namespace Sys2Proof.Machine

/-- What a meaning answers. -/
abbrev Outcome := Host.Outcome State Fault Refusal

/-! ### Access to the tables -/

/-- A position's record (R32). -/
def State.position (s : State) (p : Nat) : Position := Table.get {} s.positions p
/-- An extension entry (R52). -/
def State.entry (s : State) (e : Nat) : Entry := Table.get {} s.entries e
/-- A group's record (R65). -/
def State.group (s : State) (g : Nat) : Group := Table.get {} s.groups g
/-- A call context (R114). -/
def State.context (s : State) (j : Nat) : Context := Table.get {} s.contexts j
/-- A playout channel (R157). -/
def State.channel (s : State) (c : Nat) : Channel := Table.get {} s.channels c
/-- A line-side highway (R73). -/
def State.highway (s : State) (h : Nat) : Highway := Table.get {} s.highways h

/-- Writes a position's record. -/
def State.setPosition (s : State) (p : Nat) (v : Position) : State :=
  { s with positions := Table.set {} s.positions p v }
/-- Writes an extension entry. -/
def State.setEntry (s : State) (e : Nat) (v : Entry) : State :=
  { s with entries := Table.set {} s.entries e v }
/-- Writes a group's record. -/
def State.setGroup (s : State) (g : Nat) (v : Group) : State :=
  { s with groups := Table.set {} s.groups g v }
/-- Writes a call context. -/
def State.setContext (s : State) (j : Nat) (v : Context) : State :=
  { s with contexts := Table.set {} s.contexts j v }
/-- Writes a playout channel. -/
def State.setChannel (s : State) (c : Nat) (v : Channel) : State :=
  { s with channels := Table.set {} s.channels c v }
/-- Writes a line-side highway. -/
def State.setHighway (s : State) (h : Nat) (v : Highway) : State :=
  { s with highways := Table.set {} s.highways h v }

/-- The group record of an entry. -/
def State.groupOf (s : State) (e : Nat) : Group := s.group (s.entry e).group

/-- An entry is loaded when it is ABSENT, ADMITTED or BARRED (R55). -/
def Entry.loaded (e : Entry) : Bool := decide (e.state ≠ .unloaded)

/-- The loaded entry that holds an identity (R55). -/
def State.findIdentity (s : State) (identity : Nat) : Option Nat :=
  (s.entries.find? (fun e => e.2.loaded && decide (e.2.identity = identity))).map Prod.fst

/-- A context is OPEN while its call is present (R114). -/
def Context.isOpen (c : Context) : Bool := c.call.isSome

/-- The contexts that are OPEN. -/
def State.openContexts (s : State) : List Nat :=
  (s.contexts.filter (fun c => c.2.isOpen)).map Prod.fst

/-- The position's context field names an OPEN context (R38, R49, R117). -/
def State.openContextAt (s : State) (p : Nat) : Option Nat :=
  (s.position p).context.bind (fun j => if (s.context j).isOpen then some j else none)

/-- The pulse is absent (R13). -/
def Pulse.isAbsent : Pulse → Bool
  | .absent _ => true
  | .awaiting | .running => false

/-- An event of the frames: while the pulse is absent none occurs, nothing arrives and nothing is delivered (R13). -/
def State.whilePulsed (s : State) (effect : State → State) : Outcome :=
  .next (if s.pulse.isAbsent then s else effect s)

/-- One event for each index of a list, in order. -/
def State.forEach (s : State) (indices : List Nat) (event : State → Nat → State) : State :=
  indices.foldl event s

/-! ### Deadlines (R10 to R12) -/

/-- A frame deadline stored with distance `d` (R10). -/
def State.frameDeadline (s : State) (d : Nat) : FrameNumber := s.frameCount + BitVec.ofNat 24 d
/-- A seconds deadline stored with distance `d` (R11). -/
def State.secondsDeadline (s : State) (d : Nat) : SecondNumber := s.secondCount + BitVec.ofNat 16 d
/-- The frames remaining to a frame deadline (R12). -/
def State.framesLeft (s : State) (deadline : FrameNumber) : Nat := (deadline - s.frameCount).toNat
/-- The seconds remaining to a seconds deadline (R12). -/
def State.secondsLeft (s : State) (deadline : SecondNumber) : Nat := (deadline - s.secondCount).toNat

/-! ### Line Reply Queues (R71 to R73) -/

/-- The position of a slot of a highway (R5). -/
def positionOf (highway slot : Nat) : Nat := 120 * highway + slot

/-- Places a reply on the Line Reply Queue of the highway of position `p`, or drops it when 16 cells wait (R72, R73). -/
def State.replyTo (s : State) (p : Nat) (r : LineReply) : State :=
  let h := s.highway (p / 120)
  s.setHighway (p / 120)
    (if h.queue.length < 16 then { h with queue := h.queue ++ [.reply (p % 120) r] }
     else { h with drops := saturatingNext 65535 h.drops })

/-! ### The Report Queue (R171 to R173) -/

/-- The greatest level number present. -/
def greatestLevel (q : List QueuedCell) : Nat := q.foldl (fun m c => max m c.level) 0

/-- The lowest level number present in a queue of levels 0 to 6. -/
def lowestLevel (q : List QueuedCell) : Nat := q.foldl (fun m c => min m c.level) 7

/-- The queue without its newest cell of one level. -/
def removeNewest (level : Nat) : List QueuedCell → List QueuedCell
  | [] => []
  | c :: rest =>
      if rest.any (fun d => decide (d.level = level)) then c :: removeNewest level rest
      else if c.level = level then rest else c :: removeNewest level rest

/-- The oldest cell of the lowest level present, and the queue without it (R172). -/
def selectReport (q : List QueuedCell) : Option (OutCell × List QueuedCell) :=
  let lowest := lowestLevel q
  (q.find? (fun c => decide (c.level = lowest))).map
    (fun c => (c.cell, q.eraseP (fun d => decide (d.level = lowest))))

/-- A cell joins the Report Queue at a level: it joins while fewer than 64 wait; at 64 it takes the place of the newest
cell of the greatest level present if that level number is greater than its own, and is lost otherwise (R172, R173). -/
def State.joinCell (s : State) (level : Nat) (cell : OutCell) : State :=
  if s.reportQueue.length < 64 then
    { s with
      reportQueue := s.reportQueue ++ [⟨level, cell⟩]
      reportPause := reportPauseAfterJoin s.reportPause (s.reportQueue.length + 1) }
  else if level < greatestLevel s.reportQueue then
    { s with
      reportQueue := removeNewest (greatestLevel s.reportQueue) s.reportQueue ++ [⟨level, cell⟩]
      lostReports := saturatingNext 65535 s.lostReports }
  else { s with lostReports := saturatingNext 65535 s.lostReports }

/-- A report joins at the level its kind's setting holds; at level 7 it is not queued (R171). -/
def State.report (s : State) (r : Report) : State :=
  if s.settings.level r.kind < 7 then s.joinCell (s.settings.level r.kind) (.report r) else s

/-- The ACCEPTED answer, at level 0 (R164, R165). -/
def State.accept (s : State) (tag : Byte) (values : Accepted) : State := s.joinCell 0 (.accepted tag values)

/-- The REFUSED answer, at level 0; nothing else changes (R164, R165). -/
def State.refuse (s : State) (tag : Byte) (kind : Nat) (reason : Reason) : State :=
  s.joinCell 0 (.refused tag kind reason)

/-! ### Hold-off and backoff (R78) -/

/-- The hold-off H of the next backoff at a position (R78). -/
def State.holdOffFrames (s : State) (p : Nat) : Nat :=
  s.settings.baseHoldOff * 2 ^ (s.position p).attempts

/-- Stores the hold-off deadline and advances the attempt count (R78, R79). -/
def State.backoff (s : State) (p : Nat) : State :=
  s.setPosition p
    { s.position p with
      holdOff := some (s.frameDeadline (s.holdOffFrames p))
      attempts := saturatingNext 10 (s.position p).attempts }

/-- WAIT with backoff (R78). -/
def State.waitWithBackoff (s : State) (p : Nat) : State :=
  (s.backoff p).replyTo p (.wait (s.holdOffFrames p))

/-- REJECT with backoff (R78). -/
def State.rejectWithBackoff (s : State) (p : Nat) (reason : RejectReason) : State :=
  (s.backoff p).replyTo p (.reject reason (s.holdOffFrames p))

/-! ### Candidates and their items (R58, R75, R82, R95) -/

/-- Sets the void mark of an entry's items. -/
def voidItem (e : Nat) (item : VerifyItem) : VerifyItem :=
  if item.entry = e then { item with isVoid := true } else item

/-- Voids an entry's item wherever it is: in the Verification Queue or in flight (R29, R95). -/
def State.voidItems (s : State) (e : Nat) : State :=
  { s with
    verifyQueue := s.verifyQueue.map (voidItem e)
    inFlight := s.inFlight.map (fun f => { f with item := voidItem e f.item })
    completing := s.completing.map (fun f => { f with item := voidItem e f.item }) }

/-- Removes an entry's candidate and the pending field that mirrors it (R75). -/
def State.removeCandidate (s : State) (e p : Nat) : State :=
  (s.setEntry e { s.entry e with candidate := none }).setPosition p { s.position p with pending := none }

/-- Drops an entry's candidate, if it holds one, and voids its item if it is QUEUED (R58). -/
def State.dropCandidate (s : State) (e : Nat) : State :=
  match (s.entry e).candidate with
  | none => s
  | some c =>
      let s := s.removeCandidate e c.position
      match c.stage with
      | .awaiting _ => s
      | .queued => s.voidItems e

/-- Creates a candidate of entry `e` at position `p`: challenge the Frame Count, AWAITING, the answer deadline one
Answer Window ahead; a RENEW halts the refresh deadline; CHALLENGE is queued (R75, R82, R111). -/
def State.createCandidate (s : State) (e p : Nat) (kind : CandidateKind) : State :=
  let candidate : Candidate :=
    ⟨p, kind, s.frameCount, .awaiting (s.frameDeadline s.settings.answerWindow)⟩
  let entry := s.entry e
  let entry : Entry := { entry with candidate := some candidate }
  let entry : Entry :=
    match kind with
    | .renew => { entry with refresh := none }
    | .first | .move => entry
  ((s.setEntry e entry).setPosition p { s.position p with pending := some e }).replyTo p (.challenge s.frameCount)

/-! ### Closing a context (R120) -/

/-- Takes a context out of its call: everything R120 changes but the report. -/
def State.releaseContext (s : State) (j : Nat) (call : Call) : State :=
  let g := (s.entry call.entry).group
  let s := s.setContext j { s.context j with call := none, staged := none, window := [] }
  let s := s.setGroup g { s.group g with inUse := (s.group g).inUse - 1 }
  let s := s.setPosition call.position { s.position call.position with context := none }
  let s := s.setEntry call.entry { s.entry call.entry with context := none }
  { s with reserved := s.reserved.erase j }

/-- A close with CALL CLOSED; a FREE context is left as it is (R120). -/
def State.closeContext (s : State) (j : Nat) (cause : CloseCause) : State :=
  match (s.context j).call with
  | none => s
  | some call => (s.releaseContext j call).report (.callClosed j call.position call.entry cause)

/-- Closes the context of an entry, if it has one. -/
def State.closeContextOf (s : State) (e : Nat) (cause : CloseCause) : State :=
  match (s.entry e).context with
  | none => s
  | some j => s.closeContext j cause

/-! ### Binding and unbinding a home (R36, R63) -/

/-- A position loses its owner; its switch-side waiting code becomes 255 unless it is in SWITCH LOOP (R36, R63). -/
def Position.withoutOwner (p : Position) : Position :=
  { p with owner := none, switchWaiting := if p.requested = .switchLoop then p.switchWaiting else 255 }

/-- Unbinds an entry's home and makes its two deadlines absent (R63). -/
def State.unbind (s : State) (e : Nat) : State :=
  let entry := s.entry e
  let s := s.setEntry e { entry with home := none, refresh := none, rechallenge := none }
  match entry.home with
  | none => s
  | some h => s.setPosition h (s.position h).withoutOwner

/-- Binds entry `e` to position `p` and makes it ADMITTED (R63). -/
def State.bind (s : State) (e p : Nat) : State :=
  (s.setEntry e { s.entry e with state := .admitted, home := some p }).setPosition p
    { s.position p with owner := some e }

/-- Sets the state of an entry. -/
def State.setEntryState (s : State) (e : Nat) (state : EntryState) : State :=
  s.setEntry e { s.entry e with state := state }

/-- Ends an admission: closes the entry's context with a cause, unbinds its home and sets its state (R63, R116). -/
def State.endAdmission (s : State) (e : Nat) (cause : CloseCause) (state : EntryState) : State :=
  ((s.closeContextOf e cause).unbind e).setEntryState e state

/-- Forces off an ADMITTED entry: its candidate dropped, its context closed, its home unbound, and LAPSED FORCED toward
the home (R58). -/
def State.forceOff (s : State) (e : Nat) (cause : CloseCause) (state : EntryState) : State :=
  let home := (s.entry e).home
  let s := (s.dropCandidate e).endAdmission e cause state
  match home with
  | none => s
  | some h => s.replyTo h (.lapsed .forced)

/-- Forces off an ADMITTED entry or drops another's candidate, and gives it the state the cell names (R58 to R61). -/
def State.removeEntry (s : State) (e : Nat) (cause : CloseCause) (state : EntryState) : State :=
  match (s.entry e).state with
  | .admitted => s.forceOff e cause state
  | .absent | .barred | .unloaded => (s.dropCandidate e).setEntryState e state

/-! ### Listening to a playout channel (R47, R161) -/

/-- The code a listener receives from a channel (R161). -/
def State.channelCode (s : State) (c : Nat) : Byte :=
  match (s.channel c).status, (s.channel c).mode with
  | .running, .advance => s.pattern.read (s.channel c).position
  | .running, .fixed => s.pattern.read (s.channel c).start
  | .stopped, _ => 255
  | .countDone, _ => 255

/-- The code a tone role gives: 255 when the role is NONE (R47, R163). -/
def State.roleCode (s : State) (role : Option Nat) : Byte :=
  match role with
  | none => 255
  | some c => s.channelCode c

end Sys2Proof.Machine
end

