-- ==== Sys2Proof/Machine/Calls.lean ====
section
/-! DEFINITION. The Context Engine (chapters 7 to 9): OPEN CALL and CLOSE CALL, the transmit side's advance at a frame
boundary and its output, and the receive side's handling of one downstream arrival. -/

namespace Sys2Proof.Machine

/-- The number with its multiple-of-`span` part removed: the frames since the last multiple of the Sync Span. -/
def spanOffset (span : Nat) (n : FrameNumber) : Nat := n.toNat % span

/-! ### The staged key (R125) -/

/-- A side sets its taken mark; the key is made absent when the other mark stands (R125). -/
def markTaken (k : StagedKey) : Option StagedKey :=
  if k.txTaken ∧ k.rxTaken then none else some k

/-- STAGED TAKEN, when the side that takes the key finds the other mark set (R125). -/
def State.reportStagedTaken (s : State) (j p : Nat) (g : Generation) (otherTaken : Bool) : State :=
  if otherTaken then s.report (.stagedTaken j p g) else s

/-! ### The transmit side (R130 to R138) -/

/-- A frame number falls on a rekey boundary (R132). -/
def rekeyBoundary (settings : Settings) (n : FrameNumber) : Bool :=
  decide (settings.rekeyMultiple ≠ 0) && decide (n.toNat % (settings.rekeyMultiple * settings.syncSpan) = 0)

/-- The transmit commit of a staged key (R133). -/
def State.txCommit (s : State) (j : Nat) (call : Call) (k : StagedKey) : State :=
  let c := s.context j
  let g := c.txGeneration + 1
  let s := s.setContext j
    { c with
      call := some { call with txKey := k.key }
      txGeneration := g
      staged := markTaken { k with txTaken := true }
      skipReported := false }
  (s.report (.txRekeyed j call.position g c.txFrame)).reportStagedTaken j call.position g k.rxTaken

/-- A rekey boundary at which the transmit side cannot commit: reported once in a run (R134). -/
def State.txSkip (s : State) (j : Nat) (call : Call) (reason : SkipReason) : State :=
  let c := s.context j
  if c.skipReported then s
  else
    (s.setContext j { c with skipReported := true }).report
      (.txRekeySkipped j call.position c.txGeneration c.txFrame reason)

/-- The rekey decision (R133, R134). -/
def State.rekeyDecision (s : State) (j : Nat) (call : Call) : State :=
  match (s.context j).staged with
  | none => s.txSkip j call .noKey
  | some k => if k.txTaken then s.txSkip j call .notReceived else s.txCommit j call k

/-- The advance of an OPEN context's tx frame number, with the rekey decision when it falls on a rekey boundary
(R130, R132). -/
def State.txStep (s : State) (j : Nat) (call : Call) : State :=
  let c := s.context j
  let s := s.setContext j { c with txFrame := c.txFrame + 1 }
  if rekeyBoundary s.settings (c.txFrame + 1) then s.rekeyDecision j call else s

/-- The advance of a context; a FREE context does not advance (R123, R130). -/
def State.txAdvance (s : State) (j : Nat) : State :=
  match (s.context j).call with
  | none => s
  | some call => s.txStep j call

/-- The code the transmit side gives for a clear input: a byte of the sync burst in the first eight frames of each Sync
Span, else the clear input scrambled (R131, R136, R138). -/
def transmitCode (span : Nat) (c : Context) (call : Call) (clear : Byte) : Byte :=
  let k := spanOffset span c.txFrame
  if k < 8 then (burstBytes (c.txFrame - BitVec.ofNat 24 k) c.txGeneration).getD k 0
  else scramble clear (keystream call.txKey c.txFrame)

/-! ### The receive side (R141 to R150) -/

/-- What the receive side gives the Path Engine for one arrival: the released result, the hold sample after it, and
whether the down gain clamped (R144, R46, R48). -/
structure Released where
  code : Byte
  hold : Byte
  clamped : Bool
  deriving DecidableEq, Repr

/-- The number of the code released at an arrival: eight below the number the arrival is given (R143). -/
def releasedNumber (c : Context) : FrameNumber := c.rxFrame + 1 - 8

/-- The release of the oldest code of a full window, by its mark and the receive state before this arrival's
recognition (R144). -/
def State.releaseCode (s : State) (p : Nat) (c : Context) (call : Call) (w : WindowCode) : Released :=
  let pos := s.position p
  if w.isBurst then ⟨pos.hold, pos.hold, false⟩
  else
    match c.sync with
    | .hunt => ⟨s.roleCode s.settings.securingTone, pos.hold, false⟩
    | .keyWait => ⟨s.roleCode s.settings.keyMissTone, pos.hold, false⟩
    | .aligned | .freewheel =>
        let clear := descramble w.code (keystream call.rxKey (releasedNumber c))
        ⟨gainCode pos.downGain clear, gainCode pos.downGain clear, gainClamps pos.downGain clear⟩

/-- What an arrival releases: the oldest code of a window of eight, else nothing, which gives the hold sample
(R46, R142 step 2). -/
def State.releaseAt (s : State) (p : Nat) (c : Context) (call : Call) : Released :=
  match c.window with
  | w :: _ =>
      if c.window.length < 8 then ⟨(s.position p).hold, (s.position p).hold, false⟩ else s.releaseCode p c call w
  | [] => ⟨(s.position p).hold, (s.position p).hold, false⟩

/-- The window after an arrival: the oldest of eight codes leaves, and the input joins with its mark clear
(R141, R142 steps 2 and 4). -/
def windowAfter (window : List WindowCode) (code : Byte) : List WindowCode :=
  (if window.length < 8 then window else window.drop 1) ++ [⟨code, false⟩]

/-- The numbering of an arrival: the rx frame number advances unless the state is HUNT (R142 step 3, R143). -/
def Context.numbered (c : Context) : Context :=
  match c.sync with
  | .hunt => c
  | .aligned | .freewheel | .keyWait => { c with rxFrame := c.rxFrame + 1 }

/-- An arrival numbered by `c` falls at an expected place (R143). -/
def expectedPlace (span : Nat) (c : Context) : Bool :=
  decide (c.sync ≠ .hunt) && decide (spanOffset span c.rxFrame = 7)

/-- All marks of a window set (R146, R147). -/
def markAll (window : List WindowCode) : List WindowCode := window.map (fun w => { w with isBurst := true })

/-- The receive commit of a staged key (R150). -/
def State.rxCommit (s : State) (j : Nat) (call : Call) (k : StagedKey) (g : Generation) : State :=
  let c := s.context j
  let s := s.setContext j
    { c with
      call := some { call with rxKey := k.key }
      rxGeneration := g
      staged := markTaken { k with rxTaken := true }
      sync := .aligned }
  (s.report (.rxRekeyed j call.position g c.rxFrame)).reportStagedTaken j call.position g k.txTaken

/-- The staged key is present with rx-taken clear (R149). -/
def Context.rxTakeable (c : Context) : Option StagedKey := c.staged.filter (fun k => !k.rxTaken)

/-- The generation check enters KEY-WAIT; KEY MISS is queued unless the context was there already (R149). -/
def State.enterKeyWait (s : State) (j : Nat) (call : Call) (before : SyncState) (cause : KeyMissCause)
    (g : Generation) : State :=
  let c := s.context j
  let s := s.setContext j { c with sync := .keyWait }
  if before = .keyWait then s else s.report (.keyMiss j call.position cause g c.rxGeneration)

/-- The generation check of a recognised burst; `before` is the receive state the arrival found (R149). -/
def State.generationCheck (s : State) (j : Nat) (call : Call) (before : SyncState) (g : Generation) : State :=
  let c := s.context j
  if g = c.rxGeneration then s.setContext j { c with sync := .aligned }
  else if g = c.rxGeneration + 1 then
    match c.rxTakeable with
    | some k => s.rxCommit j call k g
    | none => s.enterKeyWait j call before .noKey g
  else s.enterKeyWait j call before .skipped g

/-- The context as a recognition leaves it before the generation check: the arrival numbered n0 + 7, all marks set,
the miss count 0 (R146, R147). -/
def Context.recognised (c : Context) (b : FoundBurst) : Context :=
  { c with rxFrame := b.n0 + 7, window := markAll c.window, misses := 0 }

/-- In ALIGNED, a burst confirms the numbering when it stands at an expected place with the expected n0; renumbering
the arrival n0 + 7 is then no change (R147). -/
def confirms (span : Nat) (c : Context) (b : FoundBurst) : Bool :=
  expectedPlace span c && decide (b.n0 = c.rxFrame - 7)

/-- The slip count after a realignment in ALIGNED (R147). -/
def Context.slipped (c : Context) : Context := { c with slips := saturatingNext 255 c.slips }

/-- A valid burst is recognised, for the receive state the arrival found (R146, R147, R149). -/
def State.recognise (s : State) (j : Nat) (call : Call) (b : FoundBurst) : State :=
  let c := s.context j
  let s :=
    match c.sync with
    | .hunt =>
        (s.setContext j (c.recognised b)).report (.syncAligned j call.position (b.n0 + 7) b.generation)
    | .freewheel | .keyWait => s.setContext j (c.recognised b)
    | .aligned =>
        if confirms s.settings.syncSpan c b then s.setContext j (c.recognised b)
        else
          (s.setContext j (c.recognised b).slipped).report (.slip j c.rxFrame b.n0 c.slipped.slips)
  s.generationCheck j call c.sync b.generation

/-- A miss: an expected place whose window holds no valid burst (R148). -/
def State.countMiss (s : State) (j : Nat) (call : Call) : State :=
  let c := s.context j
  let misses := c.misses + 1
  if misses < s.settings.missLimit then
    s.setContext j { c with misses := misses, sync := if c.sync = .aligned then .freewheel else c.sync }
  else (s.setContext j { c with misses := misses, sync := .hunt }).report (.syncLost j call.position misses)

/-- The decision of an arrival: a recognition, a miss, or neither (R142 steps 5 and 6). -/
def State.decideArrival (s : State) (j : Nat) (call : Call) : State :=
  let c := s.context j
  match findBurst s.settings.syncSpan c.window with
  | some b => s.recognise j call b
  | none => if expectedPlace s.settings.syncSpan c then s.countMiss j call else s

/-- The receive side handles one arrival, after its release: numbering, append, test and decision (R142). -/
def State.receive (s : State) (j : Nat) (call : Call) (code : Byte) : State :=
  let c := (s.context j).numbered
  (s.setContext j { c with window := windowAfter c.window code }).decideArrival j call

/-! ### OPEN CALL and CLOSE CALL (R117, R118, R121) -/

/-- The context that an accepted OPEN CALL leaves (R118). -/
def Context.opened (c : Context) (p e : Nat) (loop : Bool) (key : Key) : Context :=
  { c with
    call := some ⟨p, e, key, key⟩
    loop := loop
    txGeneration := 0
    rxGeneration := 0
    staged := none
    txFrame := 0
    skipReported := false
    sync := .hunt
    misses := 0
    slips := 0
    window := [] }

/-- The position that an accepted OPEN CALL leaves; a result already produced in this frame outside the call gives way
to the first burst byte (R37, R118). -/
def Position.opened (pos : Position) (j : Nat) : Position :=
  { pos with
    context := some j
    hold := 255
    switchWaiting := if pos.upTaken then 27 else pos.switchWaiting }

/-- An OPEN CALL that passed its checks (R118). A context that opens during a frame owes no advance for the boundary
that began the frame (R130). -/
def State.openContext (s : State) (tag : Byte) (j p e : Nat) (loop : Bool) (key : Key) : State :=
  let g := (s.entry e).group
  let s := s.setContext j ((s.context j).opened p e loop key)
  let s := s.setPosition p ((s.position p).opened j)
  let s := s.setEntry e { s.entry e with context := some j }
  let s := s.setGroup g { s.group g with inUse := (s.group g).inUse + 1 }
  let s := { s with boundary := { s.boundary with txDue := s.boundary.txDue.erase j } }
  s.accept tag (.openCall j p e)

/-- The position is in one of the two loops (R117 check 6, R38). -/
def Treatment.isLoop : Treatment → Bool
  | .lineLoop | .switchLoop => true
  | .clear | .mute | .tone => false

/-- The staged key an OPEN CALL may load: present with neither mark set (R117 check 8). -/
def Context.freshKey (c : Context) : Option Key :=
  (c.staged.filter (fun k => !k.txTaken && !k.rxTaken)).map StagedKey.key

/-- Checks 5 to 10 of an OPEN CALL (R117). -/
def State.openCallAt (s : State) (tag : Byte) (j p : Nat) (loop : Bool) : State :=
  match (s.position p).owner with
  | none => s.refuse tag 10 .notAdmitted
  | some e =>
      if (s.position p).requested.isLoop then s.refuse tag 10 .looped
      else if (s.openContextAt p).isSome then s.refuse tag 10 .positionBusy
      else
        match (s.context j).freshKey with
        | none => s.refuse tag 10 .noKey
        | some key =>
            if (s.groupOf e).budget ≤ (s.groupOf e).inUse then s.refuse tag 10 .groupFull
            else s.openContext tag j p e loop key

/-- OPEN CALL (R117). -/
def State.openCall (s : State) (tag : Byte) (j p loopFlag : Nat) : State :=
  if 255 < j then s.refuse tag 10 .badIndex
  else if (s.context j).isOpen then s.refuse tag 10 .inUse
  else if 479 < p then s.refuse tag 10 .badIndex
  else
    match loopOfCode loopFlag with
    | none => s.refuse tag 10 .badValue
    | some loop => s.openCallAt tag j p loop

/-- CLOSE CALL: the answer, then the close of an OPEN context (R121). -/
def State.closeCall (s : State) (tag : Byte) (j : Nat) : State :=
  if 255 < j then s.refuse tag 11 .badIndex
  else (s.accept tag (.closeCall j (s.context j).isOpen)).closeContext j .requested

end Sys2Proof.Machine
end

