-- ==== Sys2Proof/Machine/Outbound.lean ====
section
/-! DEFINITION. The outbound cells that the Highway Interface takes at a frame boundary (section 1.4): LINE_REPLY_SEND and
REPORT_SEND. -/

namespace Sys2Proof.Machine

/-! ### Outbound cells (R7, R172) -/

/-- The outbound line cell of a highway: a cell whose frame was cut short is sent again, else the oldest cell of the
queue leaves, or an idle cell is made (R7). -/
def Highway.takeCell (h : Highway) (cut : Bool) : Highway :=
  if cut ∧ h.sending ≠ .idle then h
  else
    match h.queue with
    | [] => { h with sending := .idle }
    | c :: rest => { h with queue := rest, sending := c }

/-- Takes the outbound line cell of a highway (R7). -/
def State.sendLine (s : State) (h : Nat) (cut : Bool) : State := s.setHighway h ((s.highway h).takeCell cut)

/-- The outbound management cell: a cell whose frame was cut short is sent again, else the Report Queue's selection
leaves, or an idle cell is made (R7, R172, R173). -/
def State.sendReport (s : State) (cut : Bool) : State :=
  if cut ∧ s.reportSending ≠ .idle then s
  else
    match selectReport s.reportQueue with
    | none => { s with reportSending := .idle }
    | some (cell, rest) =>
        { s with
          reportQueue := rest
          reportPause := reportPauseAfterTake s.reportPause rest.length
          reportSending := cell }

/-- The take of one highway's line cell at a boundary, made once (R7). -/
def State.takeLineCell (s : State) (h : Nat) : State :=
  if h ∈ s.boundary.lineDue then
    ({ s with boundary := { s.boundary with lineDue := s.boundary.lineDue.erase h } } : State).sendLine h
      s.boundary.cutShort
  else s

/-- LINE_REPLY_SEND (R7). -/
def execLineReplySend (highway : Fin 4) (s : State) : Outcome :=
  s.whilePulsed (fun s => s.takeLineCell highway.val)

/-- The take of the management cell at a boundary, made once (R7, R172). -/
def State.takeReport (s : State) : State :=
  if s.boundary.reportDue then
    ({ s with boundary := { s.boundary with reportDue := false } } : State).sendReport s.boundary.cutShort
  else s

/-- REPORT_SEND (R7, R172). -/
def execReportSend (s : State) : Outcome := s.whilePulsed State.takeReport

end Sys2Proof.Machine
end

