-- ==== Sys2Proof/Machine/Playout.lean ====
section
/-! DEFINITION. The Playout Unit (chapter 10): LOAD PATTERN, SET PLAYOUT, STOP PLAYOUT and the advance of a channel at a
frame boundary. -/

namespace Sys2Proof.Machine

/-- The four codes of a LOAD PATTERN written to an address and the three after it (R156). -/
def Memory.writeFour (m : Memory) (a : Nat) (c0 c1 c2 c3 : Byte) : Memory :=
  (((m.write a c0).write (a + 1) c1).write (a + 2) c2).write (a + 3) c3

/-- LOAD PATTERN (R156). -/
def State.loadPattern (s : State) (tag : Byte) (a : Nat) (c0 c1 c2 c3 : Byte) : State :=
  if 8188 < a then s.refuse tag 14 .badIndex
  else ({ s with pattern := s.pattern.writeFour a c0 c1 c2 c3 } : State).accept tag (.loadPattern a)

/-- A length as applied: at least 1, and not beyond the end of Pattern Memory (R158). -/
def appliedLength (start length : Nat) : Nat := max 1 (min (8192 - start) length)

/-- Repeats remaining for a repeat count: 0 is endless (R158). -/
def repeatsOf (count : Nat) : Repeats := if count = 0 then .endless else .count count

/-- The channel that an accepted SET PLAYOUT leaves (R158). -/
def startedChannel (start length repeats : Nat) (mode : PlayoutMode) : Channel :=
  { start := start
    length := appliedLength start length
    position := start
    repeats := repeatsOf repeats
    mode := mode
    status := .running }

/-- SET PLAYOUT (R158). -/
def State.setPlayout (s : State) (tag : Byte) (c repeats mode start length : Nat) : State :=
  if 15 < c then s.refuse tag 15 .badIndex
  else if 8191 < start then s.refuse tag 15 .badValue
  else
    match modeOfCode mode with
    | none => s.refuse tag 15 .badValue
    | some m =>
        (s.setChannel c (startedChannel start length repeats m)).accept tag (.setPlayout c (appliedLength start length))

/-- A channel after STOP PLAYOUT: only a RUNNING channel changes (R159). -/
def Channel.stop (c : Channel) : Channel :=
  match c.status with
  | .running => { c with status := .stopped }
  | .stopped | .countDone => c

/-- STOP PLAYOUT (R159). -/
def State.stopPlayout (s : State) (tag : Byte) (c : Nat) : State :=
  if 15 < c then s.refuse tag 16 .badIndex
  else (s.setChannel c (s.channel c).stop).accept tag (.stopPlayout c (s.channel c).status)

/-! ### Advancing (R160) -/

/-- A channel that passes the end of its stretch, with its count and status (R160 step 2). -/
def Channel.wrap (c : Channel) : Channel :=
  match c.repeats with
  | .endless => { c with position := c.start }
  | .count n =>
      { c with
        position := c.start
        repeats := .count (n - 1)
        status := if n ≤ 1 then .countDone else c.status }

/-- One advance of a RUNNING channel (R160). -/
def Channel.advanced (c : Channel) : Channel :=
  if c.position < c.start + c.length - 1 then { c with position := c.position + 1 } else c.wrap

/-- The advance of a channel: only a RUNNING channel moves, and PLAYOUT DONE is queued when its count runs out
(R160). -/
def State.playoutStep (s : State) (c : Nat) : State :=
  let channel := s.channel c
  match channel.status with
  | .stopped | .countDone => s
  | .running =>
      let after := channel.advanced
      let s := s.setChannel c after
      if after.status = .countDone then s.report (.playoutDone c channel.start channel.length) else s

/-- The advance of a channel at a boundary, made once (R160). -/
def State.takePlayout (s : State) (c : Nat) : State :=
  if c ∈ s.boundary.playoutDue then
    ({ s with boundary := { s.boundary with playoutDue := s.boundary.playoutDue.erase c } } : State).playoutStep c
  else s

/-- PLAYOUT_ADVANCE (R160). -/
def execPlayoutAdvance (channel : Fin 16) (s : State) : Outcome :=
  s.whilePulsed (fun s => s.takePlayout channel.val)

end Sys2Proof.Machine
end

