-- ==== Sys2Proof/Machine/Path.lean ====
section
/-! DEFINITION. The Path Engine (chapter 3): the effective treatment, the upstream and downstream arrivals, the waiting
codes and their slots, SET POSITION TREATMENT and SET POSITION GAIN. -/

namespace Sys2Proof.Machine

/-! ### The effective treatment (R38) -/

/-- The requested treatment that shapes a scrambled call (R38). -/
inductive Shape where
  | clear
  | mute
  | tone
  deriving DecidableEq, Repr

/-- The effective treatment; SCRAMBLED names its context and the call it holds (R38). -/
inductive Effective where
  | lineLoop
  | switchLoop
  | pending
  | mute
  | clear
  | tone
  | scrambled (shape : Shape) (context : Nat) (call : Call)
  deriving DecidableEq, Repr

/-- The OPEN context a position names, with its call (R38). -/
def State.callAt (s : State) (p : Nat) : Option (Nat × Call) :=
  (s.position p).context.bind (fun j => (s.context j).call.map (fun call => (j, call)))

/-- Cases 4 and 5, for a position with an owner and without a loop (R38). -/
def State.ownedTreatment (s : State) (p : Nat) (plain : Effective) (shape : Shape) : Effective :=
  match s.callAt p with
  | some (j, call) => .scrambled shape j call
  | none => plain

/-- Cases 3 to 5, for a position without a loop (R38). -/
def State.unloopedTreatment (s : State) (p : Nat) (plain : Effective) (shape : Shape) : Effective :=
  match (s.position p).owner, (s.position p).pending with
  | some _, _ => s.ownedTreatment p plain shape
  | none, some _ => .pending
  | none, none => .mute

/-- The effective treatment of a position (R38). -/
def State.effective (s : State) (p : Nat) : Effective :=
  match (s.position p).requested with
  | .lineLoop => .lineLoop
  | .switchLoop => .switchLoop
  | .clear => s.unloopedTreatment p .clear .clear
  | .mute => s.unloopedTreatment p .mute .mute
  | .tone => s.unloopedTreatment p .tone .tone

/-! ### Results (R34, R39 to R46) -/

/-- Stores the switch-side waiting code (R34). -/
def State.toSwitch (s : State) (p : Nat) (code : Byte) : State :=
  s.setPosition p { s.position p with switchWaiting := code }

/-- Stores the line-side waiting code (R34). -/
def State.toLine (s : State) (p : Nat) (code : Byte) : State :=
  s.setPosition p { s.position p with lineWaiting := code }

/-- A clamp count after one code (R20). -/
def clampsAfter (count : Nat) (clamped : Bool) : Nat := if clamped then saturatingNext 65535 count else count

/-- Counts a clamp of the up gain (R20). -/
def State.countUpClamp (s : State) (p : Nat) (code : Byte) : State :=
  s.setPosition p
    { s.position p with upClamps := clampsAfter (s.position p).upClamps (gainClamps (s.position p).upGain code) }

/-- Counts a clamp of the down gain (R20). -/
def State.countDownClamp (s : State) (p : Nat) (clamped : Bool) : State :=
  s.setPosition p { s.position p with downClamps := clampsAfter (s.position p).downClamps clamped }

/-- The upstream code after the up gain (R43 to R45). -/
def State.upGained (s : State) (p : Nat) (code : Byte) : Byte := gainCode (s.position p).upGain code

/-- The upstream arrival of a position in a scrambled call: the clear input, and what the transmit side returns for it
(R45). -/
def State.scrambledUp (s : State) (p : Nat) (shape : Shape) (j : Nat) (call : Call) (code : Byte) : State :=
  match shape with
  | .mute => s.toSwitch p (transmitCode s.settings.syncSpan (s.context j) call 255)
  | .clear | .tone =>
      (s.countUpClamp p code).toSwitch p (transmitCode s.settings.syncSpan (s.context j) call (s.upGained p code))

/-- The result of an upstream arrival (R34, R39 to R45). -/
def State.upstream (s : State) (p : Nat) (code : Byte) : State :=
  match s.effective p with
  | .lineLoop => (s.toLine p code).toSwitch p 255
  | .switchLoop => s.toLine p 255
  | .pending | .mute => s.toSwitch p 255
  | .clear | .tone => (s.countUpClamp p code).toSwitch p (s.upGained p code)
  | .scrambled shape j call => s.scrambledUp p shape j call code

/-- The code a downstream arrival hands to the receive side: the code the switch sent, or under CONTEXT LOOP the
position's own switch-side code being sent in the frame (R139, R142 step 1, R152). -/
def State.receiveInput (s : State) (j : Nat) (code looped : Byte) : Byte :=
  if (s.context j).loop then looped else code

/-- The line-side waiting code of a scrambled call, shaped by the requested treatment (R46). -/
def State.shaped (s : State) (p : Nat) (shape : Shape) (released : Byte) : Byte :=
  match shape with
  | .clear => released
  | .mute => 255
  | .tone => s.channelCode (s.position p).toneChannel

/-- The downstream arrival of a position in a scrambled call (R46, R48, R142). -/
def State.scrambledDown (s : State) (p : Nat) (shape : Shape) (j : Nat) (call : Call) (code looped : Byte) : State :=
  let released := s.releaseAt p (s.context j) call
  let line := s.shaped p shape released.code
  let input := s.receiveInput j code looped
  let s := s.countDownClamp p released.clamped
  let s := s.setPosition p { s.position p with hold := released.hold, lineWaiting := line }
  s.receive j call input

/-- The result of a downstream arrival; `looped` is what a context in CONTEXT LOOP takes in place of the code
(R34, R39 to R46). -/
def State.downstream (s : State) (p : Nat) (code looped : Byte) : State :=
  match s.effective p with
  | .lineLoop => s
  | .switchLoop => s.toSwitch p code
  | .pending => s.toLine p (s.roleCode s.settings.challengeTone)
  | .mute => s.toLine p 255
  | .clear =>
      (s.countDownClamp p (gainClamps (s.position p).downGain code)).toLine p (gainCode (s.position p).downGain code)
  | .tone => s.toLine p (s.channelCode (s.position p).toneChannel)
  | .scrambled shape j call => s.scrambledDown p shape j call code looped

/-! ### Slots and arrivals of a frame (R2, R4, R34) -/

/-- The switch-side slot is driven: its waiting code counts as sent and 255 stands in its place, once in a frame
(R34). -/
def Position.driveSwitch (pos : Position) : Position :=
  if pos.switchDriven then pos
  else { pos with switchSending := pos.switchWaiting, switchWaiting := 255, switchDriven := true }

/-- The line-side slot is driven (R34). -/
def Position.driveLine (pos : Position) : Position :=
  if pos.lineDriven then pos
  else { pos with lineSending := pos.lineWaiting, lineWaiting := 255, lineDriven := true }

/-- The upstream arrival of 255 that a cut-short frame still owes the position (R2, R34). -/
def State.supplyUp (s : State) (p : Nat) : State :=
  if p ∈ s.boundary.suppliedUp then
    ({ s with boundary := { s.boundary with suppliedUp := s.boundary.suppliedUp.erase p } } : State).upstream p 255
  else s

/-- The downstream arrival of 255 that a cut-short frame still owes the position; a looped context takes 255 too
(R2, R34, R152). -/
def State.supplyDown (s : State) (p : Nat) : State :=
  if p ∈ s.boundary.suppliedDown then
    ({ s with boundary := { s.boundary with suppliedDown := s.boundary.suppliedDown.erase p } } : State).downstream
      p 255 255
  else s

/-! ### The transmit advance of a boundary (R130, R131) -/

/-- The advance of one context at a boundary, made once. An upstream arrival that a cut-short frame still owes the
context's position is handled first, with the number and key of its own frame (R131). -/
def State.takeTx (s : State) (j : Nat) : State :=
  if j ∈ s.boundary.txDue then
    let s : State := { s with boundary := { s.boundary with txDue := s.boundary.txDue.erase j } }
    match (s.context j).call with
    | none => s
    | some call => (s.supplyUp call.position).txAdvance j
  else s

/-- TX_FRAME_ADVANCE (R130). -/
def execTxFrameAdvance (context : Fin 256) (s : State) : Outcome :=
  s.whilePulsed (fun s => s.takeTx context.val)

/-! ### Arrivals of a frame (R1, R7, R34, R131, R160) -/

/-- Both arrivals that a cut-short frame still owes the position: they belong to the boundary, before the slot of the
new frame. -/
def State.supplyBoth (s : State) (p : Nat) : State := (s.supplyUp p).supplyDown p

/-- The first bit of a position's slot has been driven on both sides, as it has before the slot's arrival (R1, R34). -/
def State.driveBoth (s : State) (p : Nat) : State := s.setPosition p (s.position p).driveSwitch.driveLine

/-- The transmit advance that the boundary owes the context of a position in a scrambled call: its arrivals of the new
frame have the new number, and after a rekey the new key (R130, R131). -/
def State.advanceTxAt (s : State) (p : Nat) : State :=
  match s.effective p with
  | .scrambled _ j _ => s.takeTx j
  | .lineLoop | .switchLoop | .pending | .mute | .clear | .tone => s

/-- An upstream arrival that the highway carried (R34, R131). -/
def State.upstreamCarried (s : State) (p : Nat) (code : Byte) : State :=
  let s := (((s.supplyBoth p).advanceTxAt p).driveBoth p).upstream p code
  s.setPosition p { s.position p with upTaken := true }

/-- What the boundary owes before a downstream arrival of the frame that it began: each playout channel stands where its
listeners hear it in this frame, and the outbound management cell has been taken, so that a report of the arrival waits
for the next boundary (R7, R160). -/
def State.beforeDownstream (s : State) : State := (s.forEach s.boundary.playoutDue State.takePlayout).takeReport

/-- A downstream arrival that the highway carried; a looped context takes the code being sent in the slot
(R34, R139). -/
def State.downstreamCarried (s : State) (p : Nat) (code : Byte) : State :=
  let s := (s.supplyBoth p).beforeDownstream.driveBoth p
  let s := s.downstream p code (s.position p).switchSending
  s.setPosition p { s.position p with downTaken := true }

/-- UPSTREAM_ARRIVAL (R34). -/
def execUpstreamArrival (position : Fin 480) (arrival : Arrival) (s : State) : Outcome :=
  s.whilePulsed (fun s =>
    match arrival with
    | .carried code => s.upstreamCarried position.val code
    | .supplied => s.supplyUp position.val)

/-- DOWNSTREAM_ARRIVAL (R34). -/
def execDownstreamArrival (position : Fin 480) (arrival : Arrival) (s : State) : Outcome :=
  s.whilePulsed (fun s =>
    match arrival with
    | .carried code => s.downstreamCarried position.val code
    | .supplied => s.supplyDown position.val)

/-- The first bit of a position's slot is driven on one side, once in a frame (R34). -/
def State.driveSlot (s : State) (p : Nat) (side : Side) : State :=
  let s := s.supplyBoth p
  s.setPosition p
    (match side with
     | .switch => (s.position p).driveSwitch
     | .line => (s.position p).driveLine)

/-- WAITING_CODE_SENT (R34). -/
def execWaitingCodeSent (position : Fin 480) (side : Side) (s : State) : Outcome :=
  s.whilePulsed (fun s => s.driveSlot position.val side)

/-! ### SET POSITION TREATMENT and SET POSITION GAIN (R49, R50) -/

/-- A position with its requested treatment and tone channel written; one without an owner that leaves SWITCH LOOP has
its switch-side waiting code set to 255 (R36, R49). -/
def Position.treated (pos : Position) (treatment : Treatment) (toneChannel : Nat) : Position :=
  { pos with
    requested := treatment
    toneChannel := toneChannel
    switchWaiting :=
      if pos.requested = .switchLoop ∧ treatment ≠ .switchLoop ∧ pos.owner = none then 255 else pos.switchWaiting }

/-- SET POSITION TREATMENT (R49). -/
def State.setPositionTreatment (s : State) (tag : Byte) (p treatment toneChannel : Nat) : State :=
  if 479 < p then s.refuse tag 12 .badIndex
  else
    match treatmentOfCode treatment with
    | none => s.refuse tag 12 .badValue
    | some t =>
        if 15 < toneChannel then s.refuse tag 12 .badValue
        else if t.isLoop && (s.openContextAt p).isSome then s.refuse tag 12 .inCall
        else
          (s.accept tag (.setPositionTreatment p)).setPosition p ((s.position p).treated t toneChannel)

/-- A position with a gain applied in a direction and both clamp counts at 0 (R50). -/
def Position.gained (pos : Position) (direction : Direction) (gain : Nat) : Position :=
  match direction with
  | .up => { pos with upGain := gain, upClamps := 0, downClamps := 0 }
  | .down => { pos with downGain := gain, upClamps := 0, downClamps := 0 }
  | .both => { pos with upGain := gain, downGain := gain, upClamps := 0, downClamps := 0 }

/-- SET POSITION GAIN (R50). -/
def State.setPositionGain (s : State) (tag : Byte) (p direction gain : Nat) : State :=
  if 479 < p then s.refuse tag 13 .badIndex
  else
    match directionOfCode direction with
    | none => s.refuse tag 13 .badValue
    | some d =>
        (s.accept tag (.setPositionGain p d (min 512 gain))).setPosition p ((s.position p).gained d (min 512 gain))

end Sys2Proof.Machine
end

