-- ==== Sys2Proof/Machine/SignOn.lean ====
section
/-! DEFINITION. The line cells and the deadlines of the sign-on protocol (chapter 5): IDLE and discarded cells, SIGN-ON,
ANSWER, KEEPALIVE, SIGN-OFF, the hold-off deadline and the answer deadline. -/

namespace Sys2Proof.Machine

/-- LINE_IDLE: an IDLE cell is taken and changes no state (R70). -/
def execLineIdle (_highway : Fin 4) (s : State) : Outcome := .next s

/-- LINE_CELL_DISCARDED: no reply, no report and no change of state (R70). -/
def execLineCellDiscarded (_highway : Fin 4) (_kind _slot : Nat) (s : State) : Outcome := .next s

/-! ### SIGN-ON (R81, R82) -/

/-- The kind of the candidate that a SIGN-ON of entry `e` at position `p` creates (R82). -/
def State.candidateKind (s : State) (e p : Nat) : CandidateKind :=
  match (s.entry e).state with
  | .admitted => if (s.entry e).home = some p then .renew else .move
  | .absent | .barred | .unloaded => .first

/-- Checks 5 to 8 of a SIGN-ON, for the entry that holds the identity (R81). -/
def State.signOnEntry (s : State) (p e : Nat) : State :=
  if (s.entry e).state = .barred then s.rejectWithBackoff p .barred
  else if (s.entry e).secret = none then s.rejectWithBackoff p .notReady
  else if (s.entry e).candidate ≠ none then s.rejectWithBackoff p .busy
  else s.createCandidate e p (s.candidateKind e p)

/-- Checks 2 to 8 of a SIGN-ON (R81). -/
def State.signOnFree (s : State) (p identity : Nat) : State :=
  if s.verifyPause || s.reportPause then s.waitWithBackoff p
  else if (s.position p).pending ≠ none then s.rejectWithBackoff p .busy
  else
    match s.findIdentity identity with
    | none => (s.rejectWithBackoff p .unknown).report (.unknownIdentity identity p)
    | some e => s.signOnEntry p e

/-- A SIGN-ON at position `p` (R81). -/
def State.signOnAt (s : State) (p identity : Nat) : State :=
  match (s.position p).holdOff with
  | some deadline => s.replyTo p (.wait (s.framesLeft deadline))
  | none => s.signOnFree p identity

/-! ### ANSWER (R84) -/

/-- Appends the item of the candidate of entry `e` and makes the candidate QUEUED (R84, R92, R94). -/
def State.appendItem (s : State) (e : Nat) (c : Candidate) (p : Nat) (response : Response) : State :=
  let s := s.setEntry e { s.entry e with candidate := some { c with stage := .queued } }
  { s with
    verifyQueue := s.verifyQueue ++ [⟨e, p, c.challenge, response, false⟩]
    verifyPause := verifyPauseAfterAppend s.verifyPause (s.verifyQueue.length + 1) }

/-- An ANSWER for the candidate of the pending entry `e` at `p` (R84). -/
def State.answerFor (s : State) (p e : Nat) (response : Response) : State :=
  match (s.entry e).candidate with
  | none => s
  | some c =>
      match c.stage with
      | .queued => s
      | .awaiting _ => if 32 ≤ s.verifyQueue.length then s.waitWithBackoff p else s.appendItem e c p response

/-- An ANSWER at position `p` (R84). -/
def State.answerAt (s : State) (p : Nat) (response : Response) : State :=
  match (s.position p).pending with
  | none => s.replyTo p (.reject .noChallenge 0)
  | some e => s.answerFor p e response

/-! ### KEEPALIVE (R88) -/

/-- Stores an entry's refresh deadline anew (R88). -/
def State.reloadRefresh (s : State) (e : Nat) : State :=
  s.setEntry e { s.entry e with refresh := some (s.secondsDeadline (s.groupOf e).refresh) }

/-- A KEEPALIVE from the telephone of the owner `e` of position `p` (R88). -/
def State.keepaliveOf (s : State) (p e : Nat) : State :=
  match (s.entry e).candidate with
  | none => s.reloadRefresh e
  | some c =>
      match c.kind with
      | .first | .move => s.reloadRefresh e
      | .renew =>
          match c.stage with
          | .awaiting _ => s.replyTo p (.challenge c.challenge)
          | .queued => s

/-- A KEEPALIVE at position `p` (R88). -/
def State.keepaliveAt (s : State) (p : Nat) : State :=
  match (s.position p).owner with
  | none => s.replyTo p (.reject .notSignedOn 0)
  | some e => s.keepaliveOf p e

/-! ### SIGN-OFF (R90, R91) -/

/-- The owner's admission ends (R90). -/
def State.signOffOwner (s : State) (p e : Nat) : State :=
  ((s.dropCandidate e).endAdmission e .signedOff .absent).report (.signedOff e p)

/-- A SIGN-OFF at position `p`: the owner's admission, then any candidate still pending, then the reply (R90, R91). -/
def State.signOffAt (s : State) (p : Nat) : State :=
  let s :=
    match (s.position p).owner with
    | none => s
    | some e => s.signOffOwner p e
  let s :=
    match (s.position p).pending with
    | none => s
    | some e => s.dropCandidate e
  s.replyTo p (.lapsed .signedOff)

/-! ### The frame deadlines (R77, R86, R87) -/

/-- The hold-off deadline of a position, once the Frame Count has reached it, is made absent (R77). -/
def State.takeHoldOff (s : State) (p : Nat) : State :=
  if (s.position p).holdOff = some s.frameCount then s.setPosition p { s.position p with holdOff := none } else s

/-- HOLD_OFF_DEADLINE (R77). -/
def execHoldOffDeadline (position : Fin 480) (s : State) : Outcome :=
  s.whilePulsed (fun s => s.takeHoldOff position.val)

/-- A candidate's answer deadline is reached: REJECT TIMEOUT, and for a RENEW the end of the admission (R86, R87). -/
def State.answerTimeout (s : State) (e : Nat) (c : Candidate) : State :=
  let s := s.removeCandidate e c.position
  match c.kind with
  | .first | .move => s.replyTo c.position (.reject .timeout 0)
  | .renew =>
      ((s.endAdmission e .renewTimeout .absent).replyTo c.position (.reject .timeout 0)).report
        (.lapsed e c.position .renewTimeout)

/-- The answer deadline of an entry's candidate, once the Frame Count has reached it (R10, R86, R87). -/
def State.takeAnswerDeadline (s : State) (e : Nat) : State :=
  match (s.entry e).candidate with
  | none => s
  | some c => if c.stage = .awaiting s.frameCount then s.answerTimeout e c else s

/-- ANSWER_DEADLINE (R86, R87). -/
def execAnswerDeadline (entry : Fin 1024) (s : State) : Outcome :=
  s.whilePulsed (fun s => s.takeAnswerDeadline entry.val)

end Sys2Proof.Machine
end

