-- ==== Sys2Proof/Machine/Verification.lean ====
section
/-! DEFINITION. Verification, renewal and lapse (chapter 6), with the Mixing Unit's take of verification items (section
2.5): VERIFICATION_TAKE, VERIFICATION_COMPLETE, SECOND_COUNT_ADVANCE, REFRESH_LAPSE and RECHALLENGE_DEADLINE. -/

namespace Sys2Proof.Machine

/-! ### The Second Count (R9) -/

/-- The Second Count advances and the Frame Prescale returns to 0, once at the boundary that calls for it (R9). -/
def State.takeSecond (s : State) : State :=
  if s.boundary.secondDue then
    { s with
      framePrescale := 0
      secondCount := s.secondCount + 1
      boundary := { s.boundary with secondDue := false } }
  else s

/-- SECOND_COUNT_ADVANCE (R9). -/
def execSecondCountAdvance (s : State) : Outcome := s.whilePulsed State.takeSecond

/-! ### The take (R28, R29) -/

/-- How many verifications the outputs left by the reservation allow (R28). -/
def verificationCapacity (reserved : Nat) : Nat := (520 - 2 * reserved) / 4

/-- The Mixing Unit takes items from the head of the queue and decides each outcome against the secret as it stands
(R26, R28, R29, R94). -/
def State.takeItems (s : State) : State :=
  let n := verificationCapacity s.reserved.length
  let taken := (s.verifyQueue.take n).map (fun i => (⟨i, verdictOf (s.entry i.entry).secret i⟩ : FlightItem))
  { s with
    verifyQueue := s.verifyQueue.drop n
    verifyPause := verifyPauseAfterTake s.verifyPause (s.verifyQueue.drop n).length
    inFlight := s.inFlight ++ taken
    boundary := { s.boundary with takeDue := false } }

/-- The take of a boundary, made once (R28). -/
def State.takeVerifications (s : State) : State :=
  if s.boundary.takeDue then s.takeItems else s

/-- VERIFICATION_TAKE (R28). -/
def execVerificationTake (s : State) : Outcome := s.whilePulsed State.takeVerifications

/-! ### Outcomes (R96 to R105) -/

/-- Loads an entry's two deadlines from its group (R101). -/
def State.loadDeadlines (s : State) (e : Nat) : State :=
  let g := s.groupOf e
  s.setEntry e
    { s.entry e with
      refresh := some (s.secondsDeadline g.refresh)
      rechallenge := if g.rechallenge = 0 then none else some (s.secondsDeadline g.rechallenge) }

/-- The counts a MATCH sets to 0 (R64, R79, R97). -/
def State.clearCounts (s : State) (e p : Nat) : State :=
  (s.setEntry e { s.entry e with failures := 0 }).setPosition p { s.position p with attempts := 0 }

/-- The end of every MATCH: deadlines, counts, WELCOME and ADMITTED (R97, R99, R100). -/
def State.welcome (s : State) (e p : Nat) (renew : Bool) : State :=
  let s := (s.loadDeadlines e).clearCounts e p
  (s.replyTo p (.welcome (s.groupOf e).refresh)).report (.admitted e p renew)

/-- Displacement of the owner `x` of `p` by entry `e` (R98). -/
def State.displace (s : State) (x p e : Nat) : State :=
  ((s.dropCandidate x).endAdmission x .displaced .absent).report (.displaced x p e)

/-- Displaces the owner of `p`, if it is an entry other than `e` (R97, R98, R99). -/
def State.displaceOwner (s : State) (p e : Nat) : State :=
  match (s.position p).owner with
  | none => s
  | some x => if x = e then s else s.displace x p e

/-- Entry `e` leaves its old home for `p`: its call closed, the home unbound, LAPSED MOVED and MOVED (R99). -/
def State.leaveHome (s : State) (e p : Nat) : State :=
  match (s.entry e).home with
  | none => s
  | some h =>
      (((s.closeContextOf e .moved).unbind e).replyTo h (.lapsed .moved)).report (.moved e h p)

/-- A MATCH for a candidate of entry `e` at `p` that has been removed (R97, R99, R100). -/
def State.applyMatch (s : State) (e p : Nat) (kind : CandidateKind) : State :=
  match kind with
  | .first => ((s.displaceOwner p e).bind e p).welcome e p false
  | .move => (((s.leaveHome e p).displaceOwner p e).bind e p).welcome e p false
  | .renew => s.welcome e p true

/-- The bar of a MISMATCH that reaches the failure limit (R103). -/
def State.barForFailures (s : State) (e p : Nat) (kind : CandidateKind) : State :=
  let failures := (s.entry e).failures
  match kind, (s.entry e).home with
  | .move, some h =>
      ((s.endAdmission e .barred .barred).replyTo h (.lapsed .forced)).report (.barred e h failures)
  | .renew, some h => (s.endAdmission e .barred .barred).report (.barred e h failures)
  | _, _ => (s.setEntryState e .barred).report (.barred e p failures)

/-- A failed RENEW ends the admission (R104, R105). -/
def State.endRenewal (s : State) (e : Nat) (kind : CandidateKind) : State :=
  match kind with
  | .first | .move => s
  | .renew => s.endAdmission e .renewFailed .absent

/-- The result a failed candidate reports when it did not bar its entry (R113, R175). -/
def CandidateKind.failedResult : CandidateKind → RejectedResult
  | .first | .move => .noChange
  | .renew => .admissionEnded

/-- A MISMATCH for a candidate of entry `e` at `p` that has been removed (R102 to R104). A bar that also ends an
admission, of a MOVE or a RENEW, meets both results that R175 numbers, and the manual does not say which is given; here barred, a
DESIGN CHOICE (assumption 20). -/
def State.applyMismatch (s : State) (e p : Nat) (kind : CandidateKind) : State :=
  let s := s.setEntry e { s.entry e with failures := saturatingNext 7 (s.entry e).failures }
  if (s.groupOf e).failureLimit ≤ (s.entry e).failures then
    ((s.barForFailures e p kind).rejectWithBackoff p .failed).report (.rejected e p kind .failed .nowBarred)
  else
    ((s.endRenewal e kind).rejectWithBackoff p .failed).report (.rejected e p kind .failed kind.failedResult)

/-- A NOT READY outcome for a candidate of entry `e` at `p` that has been removed (R105). -/
def State.applyNotReady (s : State) (e p : Nat) (kind : CandidateKind) : State :=
  ((s.endRenewal e kind).replyTo p (.reject .notReady 0)).report
    (.rejected e p kind .notReady kind.failedResult)

/-- Applies an outcome to the candidate it was decided for (R96). -/
def State.applyVerdict (s : State) (verdict : Verdict) (e p : Nat) (kind : CandidateKind) : State :=
  match verdict with
  | .matched => s.applyMatch e p kind
  | .mismatch => s.applyMismatch e p kind
  | .notReady => s.applyNotReady e p kind

/-- Completes one item: a void item is discarded; a live one's candidate is removed and its outcome applied
(R95, R96). -/
def State.completeItem (s : State) (f : FlightItem) : State :=
  if f.item.isVoid then s
  else
    match (s.entry f.item.entry).candidate with
    | none => s
    | some c =>
        (s.removeCandidate f.item.entry f.item.position).applyVerdict f.verdict f.item.entry f.item.position c.kind

/-- Completes items in the order in which they were taken, each as it stands after those before it (R96, R107). -/
def State.completeItems : Nat → State → State
  | 0, s => s
  | n + 1, s =>
      match s.completing with
      | [] => s
      | f :: rest => State.completeItems n (State.completeItem { s with completing := rest } f)

/-- The completions of a boundary. They read the Second Count as the boundary leaves it, so an advance that is still
due is made first (R101, R109). -/
def State.complete (s : State) : State :=
  match s.completing with
  | [] => s
  | _ :: _ => State.completeItems s.completing.length s.takeSecond

/-- VERIFICATION_COMPLETE (R30, R96). -/
def execVerificationComplete (s : State) : Outcome := s.whilePulsed State.complete

/-! ### Refresh and lapse (R108) -/

/-- An entry's admission lapses (R108). -/
def State.lapse (s : State) (e : Nat) : State :=
  let home := (s.entry e).home
  let s := (s.dropCandidate e).endAdmission e .lapsed .absent
  match home with
  | none => s
  | some p => (s.replyTo p (.lapsed .timeout)).report (.lapsed e p .timeout)

/-- The refresh deadline of an entry, once the Second Count has reached it (R11, R108). -/
def State.takeRefresh (s : State) (e : Nat) : State :=
  if (s.entry e).refresh = some s.secondCount then s.lapse e else s

/-- REFRESH_LAPSE (R108). -/
def execRefreshLapse (entry : Fin 1024) (s : State) : Outcome :=
  s.whilePulsed (fun s => s.takeRefresh entry.val)

/-! ### Re-challenge (R110, R111) -/

/-- Whether a re-challenge of entry `e` at home `p` is postponed (R110). -/
def State.rechallengeBlocked (s : State) (e p : Nat) : Bool :=
  (s.entry e).candidate.isSome || (s.position p).pending.isSome || s.verifyPause

/-- A re-challenge: postponed by one second, or a RENEW candidate at the home (R110, R111). -/
def State.rechallengeAt (s : State) (e p : Nat) : State :=
  if s.rechallengeBlocked e p then
    s.setEntry e { s.entry e with rechallenge := some (s.secondsDeadline 1) }
  else (s.setEntry e { s.entry e with rechallenge := none }).createCandidate e p .renew

/-- The re-challenge deadline of an entry, once the Second Count has reached it (R11, R110). -/
def State.takeRechallenge (s : State) (e : Nat) : State :=
  if (s.entry e).rechallenge = some s.secondCount then
    match (s.entry e).home with
    | none => s
    | some p => s.rechallengeAt e p
  else s

/-- RECHALLENGE_DEADLINE (R110). -/
def execRechallengeDeadline (entry : Fin 1024) (s : State) : Outcome :=
  s.whilePulsed (fun s => s.takeRechallenge entry.val)

end Sys2Proof.Machine
end

