-- ==== Sys2Proof/Machine/Boundary.lean ====
section
/-! DEFINITION. What a frame boundary still has to bring about, brought about: the events laid down in `State.boundary` that
no command has taken yet, and the deadlines that stand at their count. -/

namespace Sys2Proof.Machine

/-- The events of the last boundary that no command has taken, in one of the orders the spec allows: supplied
arrivals, the Second Count, completions, the take, the deadlines, the transmit sides, the playout channels and the
outbound cells (assumption 2). -/
def State.finishBoundary (s : State) : State :=
  let s := s.forEach s.boundary.suppliedUp State.supplyUp
  let s := s.forEach s.boundary.suppliedDown State.supplyDown
  let s := s.takeSecond.complete.takeVerifications
  let s := s.forEach s.positions.indices State.takeHoldOff
  let s := s.forEach s.entries.indices State.takeAnswerDeadline
  let s := s.forEach s.entries.indices State.takeRefresh
  let s := s.forEach s.entries.indices State.takeRechallenge
  let s := s.forEach s.boundary.txDue State.takeTx
  let s := s.forEach s.boundary.playoutDue State.takePlayout
  let s := s.forEach s.boundary.lineDue State.takeLineCell
  s.takeReport

end Sys2Proof.Machine
end

