-- ==== Sys2Proof/Machine/Extensions.lean ====
section
/-! DEFINITION. The management cells that write entries and groups (chapter 4), and the Pair Buffer with the two cells
that fill it (R56, R124, R166, R167). -/

namespace Sys2Proof.Machine

/-- MANAGEMENT_IDLE: no answer and no change of state (R164). -/
def execManagementIdle (s : State) : Outcome := .next s

/-! ### Loading and unloading (R57, R59) -/

/-- A loaded entry other than `e` holds the identity (R57). -/
def State.identityTaken (s : State) (e identity : Nat) : Bool :=
  s.entries.any (fun x => decide (x.1 ≠ e) && x.2.loaded && decide (x.2.identity = identity))

/-- The entry that an accepted LOAD EXTENSION leaves (R57). -/
def Entry.load (entry : Entry) (group identity : Nat) : Entry :=
  { entry with
    identity := identity
    group := group
    secret := if identity = entry.identity then entry.secret else none
    state := if entry.state = .unloaded then .absent else entry.state
    failures := if entry.state = .unloaded then 0 else entry.failures }

/-- LOAD EXTENSION (R57). -/
def State.loadExtension (s : State) (tag : Byte) (e group identity : Nat) : State :=
  if 1023 < e then s.refuse tag 1 .badIndex
  else if 99999999 < identity then s.refuse tag 1 .badValue
  else if s.identityTaken e identity then s.refuse tag 1 .duplicate
  else if (s.entry e).state = .admitted ∨ (s.entry e).candidate ≠ none then s.refuse tag 1 .inUse
  else (s.accept tag (.entryCommand .loadExtension e)).setEntry e ((s.entry e).load group identity)

/-- Sets an entry's failure count to 0 (R64). -/
def State.clearFailures (s : State) (e : Nat) : State := s.setEntry e { s.entry e with failures := 0 }

/-- UNLOAD EXTENSION (R59). -/
def State.unloadExtension (s : State) (tag : Byte) (e : Nat) : State :=
  if 1023 < e then s.refuse tag 2 .badIndex
  else if (s.entry e).state = .unloaded then s.refuse tag 2 .notLoaded
  else ((s.accept tag (.entryCommand .unloadExtension e)).removeEntry e .unloaded .unloaded).clearFailures e

/-! ### Forced sign-off, bar and unbar (R60 to R62) -/

/-- FORCE SIGN-OFF (R60). -/
def State.forceSignOff (s : State) (tag : Byte) (e : Nat) : State :=
  if 1023 < e then s.refuse tag 4 .badIndex
  else if (s.entry e).state = .unloaded then s.refuse tag 4 .notLoaded
  else if (s.entry e).state ≠ .admitted ∧ (s.entry e).candidate = none then s.refuse tag 4 .notAdmitted
  else (s.accept tag (.entryCommand .forceSignOff e)).removeEntry e .signedOff .absent

/-- BAR (R61). -/
def State.barEntry (s : State) (tag : Byte) (e : Nat) : State :=
  if 1023 < e then s.refuse tag 5 .badIndex
  else if (s.entry e).state = .unloaded then s.refuse tag 5 .notLoaded
  else (s.accept tag (.entryCommand .bar e)).removeEntry e .barred .barred

/-- UNBAR (R62). -/
def State.unbarEntry (s : State) (tag : Byte) (e : Nat) : State :=
  if 1023 < e then s.refuse tag 6 .badIndex
  else if (s.entry e).state ≠ .barred then s.refuse tag 6 .notBarred
  else
    (s.accept tag (.entryCommand .unbar e)).setEntry e { s.entry e with state := .absent, failures := 0 }

/-! ### Groups (R67, R68) -/

/-- A budget as applied: at most 256, and not below the in-use count (R67). -/
def appliedBudget (inUse budget : Nat) : Nat := max inUse (min 256 budget)

/-- A failure limit as applied (R67). -/
def appliedFailureLimit (limit : Nat) : Nat := max 1 (min 7 limit)

/-- SET GROUP LIMITS (R67). -/
def State.setGroupLimits (s : State) (tag : Byte) (g budget limit : Nat) : State :=
  if 15 < g then s.refuse tag 7 .badIndex
  else
    let budget := appliedBudget (s.group g).inUse budget
    let limit := appliedFailureLimit limit
    (s.accept tag (.setGroupLimits g budget limit)).setGroup g
      { s.group g with budget := budget, failureLimit := limit }

/-- SET GROUP TIMES (R68). -/
def State.setGroupTimes (s : State) (tag : Byte) (g refresh rechallenge : Nat) : State :=
  if 15 < g then s.refuse tag 8 .badIndex
  else
    let refresh := max 1 (min 4095 refresh)
    let rechallenge := min 32767 rechallenge
    (s.accept tag (.setGroupTimes g refresh rechallenge)).setGroup g
      { s.group g with refresh := refresh, rechallenge := rechallenge }

/-! ### The Pair Buffer (R166, R167) -/

/-- The key that two halves join to: the low half is words k0 and k1, the high half k2 and k3 (R166). -/
def joinHalves (a b : PairHalf) : Key :=
  match a.half with
  | .low => ⟨a.first, a.second, b.first, b.second⟩
  | .high => ⟨b.first, b.second, a.first, a.second⟩

/-- The buffer holds the other half of the same target (R167). -/
def PairHalf.completes (new : PairHalf) (old : Option PairHalf) : Bool :=
  match old with
  | none => false
  | some o => decide (o.target = new.target) && decide (o.half ≠ new.half)

/-- The half that a new half breaks: one held for another target (R167). -/
def PairHalf.breaks (new : PairHalf) (old : Option PairHalf) : Option PairHalf :=
  old.filter (fun o => decide (o.target ≠ new.target))

/-- The key the new half completes, if it does (R167). -/
def PairHalf.joined (new : PairHalf) (old : Option PairHalf) : Option Key :=
  if new.completes old then old.map (joinHalves new) else none

/-- What the buffer holds after the half (R167). -/
def PairHalf.leaves (new : PairHalf) (old : Option PairHalf) : Option PairHalf :=
  if new.completes old then none else some new

/-- PAIR BROKEN for a broken half, after the answer (R167). -/
def State.reportBroken (s : State) (broken : Option PairHalf) : State :=
  match broken with
  | none => s
  | some o => s.report (.pairBroken o.target o.half)

/-- SECRET HALF: the secret becomes absent, or present with the joined words when the half completes the pair
(R56, R167). -/
def State.secretHalf (s : State) (tag : Byte) (half : Half) (e : Nat) (first second : KeyWord) : State :=
  if 1023 < e then s.refuse tag 3 .badIndex
  else if (s.entry e).state = .unloaded then s.refuse tag 3 .notLoaded
  else
    let new : PairHalf := ⟨.secret e, half, first, second⟩
    let old := s.pairBuffer
    let s := s.setEntry e { s.entry e with secret := new.joined old }
    let s := { s with pairBuffer := new.leaves old }
    (s.accept tag (.secretHalf e half (new.completes old))).reportBroken (new.breaks old)

/-- A staged key with exactly one of its marks set (R124). -/
def StagedKey.halfTaken (k : StagedKey) : Bool := k.txTaken != k.rxTaken

/-- STAGED HALF is refused STAGED BUSY while exactly one side has taken the staged key (R124). -/
def Context.stagedBusy (c : Context) : Bool := c.staged.any StagedKey.halfTaken

/-- STAGED HALF (R124, R167). -/
def State.stagedHalf (s : State) (tag : Byte) (half : Half) (j : Nat) (first second : KeyWord) : State :=
  if 255 < j then s.refuse tag 9 .badIndex
  else if (s.context j).stagedBusy then s.refuse tag 9 .stagedBusy
  else
    let new : PairHalf := ⟨.stagedKey j, half, first, second⟩
    let old := s.pairBuffer
    let s := s.setContext j { s.context j with staged := (new.joined old).map (fun k => ⟨k, false, false⟩) }
    let s := { s with pairBuffer := new.leaves old }
    (s.accept tag (.stagedHalf j half (new.completes old))).reportBroken (new.breaks old)

end Sys2Proof.Machine
end

