-- ==== Sys2Proof/Config.lean ====
section
/-! DEFINITION. What the spec leaves open: the one free value of the model.
`Config.freeByte` has no body, so nothing in Lean can evaluate it or prove anything of a value of it: every statement
about a byte it gives holds whatever that byte is. -/

namespace Sys2Proof

/-- The bytes of a READ page that show a field holding no value and whose layout names no byte for that case
(R177; assumption 9). The argument is a number the state gives out once, `State.freeCount`. DESIGN CHOICE, safe. -/
opaque Config.freeByte : Nat → Byte

end Sys2Proof
end

