-- ==== Sys2Proof/Machine/Pages.lean ====
section
/-! DEFINITION. The READ pages (R169, R177): the six bytes of each part of each page. A byte whose field holds no value
and for which no rule names the byte shown is open (`none`); `fillFree` gives it a free value. -/

namespace Sys2Proof.Machine

/-- A byte of a page: `none` where the manual names no byte. -/
abbrev PageByte := Option Byte

/-- A field of the page whose bytes are known. -/
def known (bytes : List Byte) : List PageByte := bytes.map some

/-- A one-byte field that may hold no value. -/
def openable1 (v : Option Nat) : List PageByte :=
  match v with
  | none => [none]
  | some n => known (field1 n)

/-- A three-byte field that may hold no value. -/
def openable3 (v : Option Nat) : List PageByte :=
  match v with
  | none => [none, none, none]
  | some n => known (field3 n)

/-- An entry or position, sent as 65535 when absent (R174). -/
def indexField (v : Option Nat) : List PageByte := known (field2 (v.getD 65535))

/-- A remaining time in two bytes, 0 when the deadline is absent (R12, R174). -/
def remainingField (v : Option Nat) : List PageByte := known (field2 (v.getD 0))

/-- The parts of extension state (R177). -/
def State.extensionStatePage (s : State) (e : Nat) : Nat → Option (List PageByte)
  | 0 => some (known (field1 (s.entry e).state.code ++ field1 (flagCode (s.entry e).secret.isSome) ++
      field4 (s.entry e).identity))
  | 1 => some (indexField (s.entry e).home ++ openable1 (s.entry e).context ++
      known (field1 (flagCode (s.entry e).context.isSome) ++ field1 (s.entry e).group ++
        field1 (s.entry e).failures))
  | 2 => some (remainingField ((s.entry e).refresh.map s.secondsLeft) ++
      remainingField ((s.entry e).rechallenge.map s.secondsLeft))
  | _ => none

/-- The code of a candidate's stage (R177). -/
def Stage.code : Stage → Nat
  | .awaiting _ => 0
  | .queued => 1

/-- The answer deadline of a stage (R75). -/
def Stage.deadline : Stage → Option FrameNumber
  | .awaiting d => some d
  | .queued => none

/-- The parts of extension candidate (R177). -/
def State.extensionCandidatePage (s : State) (e : Nat) : Nat → Option (List PageByte)
  | 0 =>
      match (s.entry e).candidate with
      | none => some (known (field1 0) ++ openable1 none ++ indexField none ++ remainingField none)
      | some c => some (known (field1 c.kind.code ++ field1 c.stage.code) ++ indexField (some c.position) ++
          remainingField (c.stage.deadline.map s.framesLeft))
  | 1 => some (openable3 ((s.entry e).candidate.map (fun c => c.challenge.toNat)))
  | _ => none

/-- The part of position treatment and gains (R177). -/
def State.positionTreatmentPage (s : State) (p : Nat) : Nat → Option (List PageByte)
  | 0 => some (known (field1 (s.position p).requested.code ++ field1 (s.position p).toneChannel ++
      field2 (s.position p).upGain ++ field2 (s.position p).downGain))
  | _ => none

/-- The parts of position bindings and counts (R177). -/
def State.positionBindingsPage (s : State) (p : Nat) : Nat → Option (List PageByte)
  | 0 => some (indexField (s.position p).owner ++ indexField (s.position p).pending ++
      openable1 (s.position p).context ++ known (field1 (flagCode (s.position p).context.isSome)))
  | 1 => some (known (field1 (s.position p).attempts ++ field1 0 ++ field2 (s.position p).upClamps ++
      field2 (s.position p).downClamps))
  | _ => none

/-- The staged key as a page shows it (R177). -/
def stagedCode : Option StagedKey → Nat
  | none => 0
  | some k => if k.txTaken then 2 else if k.rxTaken then 3 else 1

/-- The parts of context transmit (R177). -/
def State.contextTransmitPage (s : State) (j : Nat) : Nat → Option (List PageByte)
  | 0 => some (known (field1 (flagCode (s.context j).isOpen) ++ field1 (flagCode (s.context j).loop)) ++
      indexField ((s.context j).call.map Call.position) ++ indexField ((s.context j).call.map Call.entry))
  | 1 => some (known (field3 (s.context j).txFrame.toNat ++ field1 (s.context j).txGeneration.toNat ++
      field1 (flagCode (s.context j).skipReported) ++ field1 (stagedCode (s.context j).staged)))
  | _ => none

/-- The rx frame number as a page shows it: absent in HUNT (R129). -/
def Context.shownRxFrame (c : Context) : Option Nat :=
  match c.sync with
  | .hunt => none
  | .aligned | .freewheel | .keyWait => some c.rxFrame.toNat

/-- The parts of context receive (R177). -/
def State.contextReceivePage (s : State) (j : Nat) : Nat → Option (List PageByte)
  | 0 => some (known (field1 (s.context j).sync.code ++ field1 (s.context j).rxGeneration.toNat ++
      field1 (s.context j).misses ++ field1 (s.context j).slips ++ field1 (s.context j).window.length))
  | 1 => some (openable3 (s.context j).shownRxFrame ++ known (field1 (flagCode (s.context j).shownRxFrame.isSome)))
  | _ => none

/-- The parts of group (R177). -/
def State.groupPage (s : State) (g : Nat) : Nat → Option (List PageByte)
  | 0 => some (known (field2 (s.group g).budget ++ field2 (s.group g).inUse ++ field1 (s.group g).failureLimit))
  | 1 => some (known (field2 (s.group g).refresh ++ field2 (s.group g).rechallenge))
  | _ => none

/-- The repeats remaining of a channel, absent when endless (R177). -/
def Repeats.shown : Repeats → Option Nat
  | .endless => none
  | .count n => some n

/-- The parts of playout channel (R177). -/
def State.playoutPage (s : State) (c : Nat) : Nat → Option (List PageByte)
  | 0 => some (known (field2 (s.channel c).start ++ field2 (s.channel c).length ++ field2 (s.channel c).position))
  | 1 => some (openable1 (s.channel c).repeats.shown ++
      known (field1 (flagCode (s.channel c).repeats.shown.isNone) ++ field1 (s.channel c).mode.code ++
        field1 (s.channel c).status.code))
  | _ => none

/-- The pauses as a page shows them: 1 Verification, 2 Report, 3 both (R177). -/
def State.pauseCode (s : State) : Nat := flagCode s.verifyPause + 2 * flagCode s.reportPause

/-- The parts of device counts (R177). -/
def State.deviceCountsPage (s : State) : Nat → Option (List PageByte)
  | 0 => some (known (field3 s.frameCount.toNat ++ field2 s.secondCount.toNat ++ field1 s.pauseCode))
  | 1 => some (known (field2 s.openContexts.length ++ field1 s.verifyQueue.length ++ field1 s.reportQueue.length ++
      field2 s.lostReports))
  | 2 => some (known (field1 (s.highway 0).queue.length ++ field1 (s.highway 1).queue.length ++
      field1 (s.highway 2).queue.length ++ field1 (s.highway 3).queue.length ++ field2 (s.highway 0).drops))
  | 3 => some (known (field2 (s.highway 1).drops ++ field2 (s.highway 2).drops ++ field2 (s.highway 3).drops))
  | _ => none

/-- The number of indices of a page kind; `none` for a kind that is none of the nine (R169). -/
def pageSize : Nat → Option Nat
  | 1 => some 1024
  | 2 => some 1024
  | 3 => some 480
  | 4 => some 480
  | 5 => some 256
  | 6 => some 256
  | 7 => some 16
  | 8 => some 16
  | 9 => some 1
  | _ => none

/-- A part of a page; `none` where the page has no such part (R169, R177). -/
def State.page (s : State) (kind index part : Nat) : Option (List PageByte) :=
  match kind with
  | 1 => s.extensionStatePage index part
  | 2 => s.extensionCandidatePage index part
  | 3 => s.positionTreatmentPage index part
  | 4 => s.positionBindingsPage index part
  | 5 => s.contextTransmitPage index part
  | 6 => s.contextReceivePage index part
  | 7 => s.groupPage index part
  | 8 => s.playoutPage index part
  | 9 => s.deviceCountsPage part
  | _ => none

/-- How many bytes of a part are open. -/
def openCount (page : List PageByte) : Nat := page.countP Option.isNone

/-- A part with its open bytes filled with free values, numbered from `n`. -/
def fillFree (n : Nat) : List PageByte → List Byte
  | [] => []
  | some b :: rest => b :: fillFree n rest
  | none :: rest => Config.freeByte n :: fillFree (n + 1) rest

end Sys2Proof.Machine
end

