-- ==== Sys2Proof/Machine/Control.lean ====
section
/-! DEFINITION. The Control Channel Unit's own cells (chapter 11): SET DEVICE, READ and RESTART. -/

namespace Sys2Proof.Machine

/-! ### SET DEVICE (R168) -/

/-- A tone role as a SET DEVICE value names it: a channel, or NONE at 65535; `none` when out of range (R168). -/
def roleOfValue (value : Nat) : Option (Option Nat) :=
  if value = 65535 then some none else if value ≤ 15 then some (some value) else none

/-- The values a Sync Span may take (R168). -/
def isSyncSpan (value : Nat) : Bool :=
  decide (value ∈ ([256, 512, 1024, 2048, 4096, 8192] : List Nat))

/-- The setting numbers of the table (R168). -/
def isSetting (n : Nat) : Bool := decide (1 ≤ n ∧ n ≤ 8) || decide (17 ≤ n ∧ n ≤ 36)

/-- The value a setting takes from the value carried; `none` when it is refused (R168). -/
def appliedSetting (n value : Nat) : Option Nat :=
  match n with
  | 1 => if isSyncSpan value then some value else none
  | 2 => some (min 255 value)
  | 3 => some (max 1 (min 7 value))
  | 4 => some (max 800 (min 65535 value))
  | 5 => some (max 8 (min 4096 value))
  | 6 | 7 | 8 => (roleOfValue value).map (fun _ => value)
  | _ => some (min 7 value)

/-- Writes an applied value into its setting (R168). -/
def Settings.write (settings : Settings) (n value : Nat) : Settings :=
  match n with
  | 1 => { settings with syncSpan := value }
  | 2 => { settings with rekeyMultiple := value }
  | 3 => { settings with missLimit := value }
  | 4 => { settings with answerWindow := value }
  | 5 => { settings with baseHoldOff := value }
  | 6 => { settings with challengeTone := (roleOfValue value).getD none }
  | 7 => { settings with securingTone := (roleOfValue value).getD none }
  | 8 => { settings with keyMissTone := (roleOfValue value).getD none }
  | n => if 17 ≤ n then { settings with levels := settings.levels.setIfInBounds (n - 17) value } else settings

/-- SET DEVICE (R168). -/
def State.setDevice (s : State) (tag : Byte) (n value : Nat) : State :=
  if !isSetting n then s.refuse tag 17 .badValue
  else if n ≤ 2 ∧ s.openContexts ≠ [] then s.refuse tag 17 .inUse
  else
    match appliedSetting n value with
    | none => s.refuse tag 17 .badValue
    | some v => ({ s with settings := s.settings.write n v } : State).accept tag (.setDevice n v)

/-! ### READ (R169) -/

/-- The ANSWER to a READ that passed its checks; open bytes take free values, which the model's counter numbers
(R169, R177; assumption 9). -/
def State.answerPage (s : State) (tag : Byte) (page : List PageByte) : State :=
  let cell : OutCell := .answer tag (sixBytes (fillFree s.freeCount page))
  ({ s with freeCount := s.freeCount + openCount page } : State).joinCell 0 cell

/-- READ (R169). -/
def State.readPage (s : State) (tag : Byte) (kind index part : Nat) : State :=
  match pageSize kind with
  | none => s.refuse tag 18 .badValue
  | some size =>
      if size ≤ index then s.refuse tag 18 .badIndex
      else
        match s.page kind index part with
        | none => s.refuse tag 18 .badValue
        | some page => s.answerPage tag page

/-! ### RESTART (R170) -/

/-- A context after a RESTART (R115, R128). -/
def Context.restarted (c : Context) : Context := { c with call := none, window := [], staged := none }

/-- The Pair Buffer after RESTART CALLS: a half of a staged key is emptied, a half of a secret stays (R166). -/
def pairAfterRestartCalls (b : Option PairHalf) : Option PairHalf :=
  b.filter (fun h =>
    match h.target with
    | .secret _ => true
    | .stagedKey _ => false)

/-- What RESTART CALLS does to the calls (R128): every context closed without CALL CLOSED, every staged key absent,
every in-use count 0. -/
def State.restartCalls (s : State) : State :=
  { s with
    contexts := Table.mapAll {} Context.restarted s.contexts
    positions := Table.mapAll {} (fun p => { p with context := none }) s.positions
    entries := Table.mapAll {} (fun e => { e with context := none }) s.entries
    groups := Table.mapAll {} (fun g => { g with inUse := 0 }) s.groups
    reserved := []
    pairBuffer := pairAfterRestartCalls s.pairBuffer }

/-- An entry after RESTART ALL (R53). -/
def Entry.restarted (e : Entry) : Entry :=
  { e with
    state := if e.state = .admitted then .absent else e.state
    home := none
    candidate := none
    refresh := none
    rechallenge := none
    failures := 0
    context := none }

/-- A position after RESTART ALL (R33, R36). -/
def Position.restarted (p : Position) : Position :=
  { p.withoutOwner with pending := none, context := none, attempts := 0, holdOff := none }

/-- An item in flight with its void mark set (R31). -/
def FlightItem.voided (f : FlightItem) : FlightItem := { f with item := { f.item with isVoid := true } }

/-- What RESTART ALL does besides RESTART CALLS (R170). -/
def State.restartAdmissions (s : State) : State :=
  { s with
    entries := Table.mapAll {} Entry.restarted s.entries
    positions := Table.mapAll {} Position.restarted s.positions
    highways := Table.mapAll {} (fun h => { h with queue := [] }) s.highways
    pairBuffer := none
    inFlight := s.inFlight.map FlightItem.voided
    completing := s.completing.map FlightItem.voided
    verifyQueue := []
    verifyPause := false
    reportQueue := []
    reportPause := false }

/-- RESTARTED, and then the ACCEPTED answer (R164, R170). -/
def State.reportRestart (s : State) (tag : Byte) (scope : Scope) (closed : Nat) : State :=
  (s.report (.restarted scope closed)).accept tag (.restart scope)

/-- RESTART (R170). -/
def State.restart (s : State) (tag : Byte) (scope : Nat) : State :=
  match scopeOfCode scope with
  | none => s.refuse tag 19 .badValue
  | some .calls => s.restartCalls.reportRestart tag .calls s.openContexts.length
  | some .all => s.restartCalls.restartAdmissions.reportRestart tag .all s.openContexts.length

end Sys2Proof.Machine
end

