-- ==== Sys2Proof/Machine/Cells.lean ====
section
/-! DEFINITION. The commands that are cells (R6, R70, R164). A cell is delivered when slot 127 of its frame has arrived, so
the boundary that began the frame lies before it: what that boundary brings about is made first, and the cell finds no
deadline that stands at its count (R7, R10, R12, R28, R77, R130, R160; assumption 2). A cell that a boundary finds still
waiting stands before that boundary in the queue. -/

namespace Sys2Proof.Machine

/-! ### Line cells (chapter 5) -/

/-- A line cell of a known kind concerns a position only if its slot is a speech slot; with a slot of 120 or more it is
discarded (R5, R70). What the last boundary brings about comes first (assumption 2). -/
def State.lineCell (s : State) (highway slot : Nat) (effect : Nat → State → State) : Outcome :=
  s.whilePulsed (fun s => if slot < 120 then effect (positionOf highway slot) s.finishBoundary else s)

/-- SIGN_ON (R81, R82). -/
def execSignOn (highway : Fin 4) (slot identity : Nat) (s : State) : Outcome :=
  s.lineCell highway.val slot (fun p s => s.signOnAt p identity)

/-- ANSWER (R84). -/
def execAnswer (highway : Fin 4) (slot : Nat) (response : Response) (s : State) : Outcome :=
  s.lineCell highway.val slot (fun p s => s.answerAt p response)

/-- KEEPALIVE (R88). -/
def execKeepalive (highway : Fin 4) (slot : Nat) (s : State) : Outcome :=
  s.lineCell highway.val slot (fun p s => s.keepaliveAt p)

/-- SIGN_OFF (R90, R91). -/
def execSignOff (highway : Fin 4) (slot : Nat) (s : State) : Outcome :=
  s.lineCell highway.val slot (fun p s => s.signOffAt p)

/-! ### Management cells (chapter 11) -/

/-- A management cell is taken when the Highway Interface delivers it, which it does not while the pulse is absent
(R6, R13, R164). What the last boundary brings about comes first (assumption 2). -/
def State.managementCell (s : State) (effect : State → State) : Outcome :=
  s.whilePulsed (fun s => effect s.finishBoundary)

/-- UNKNOWN_KIND: answered REFUSED UNKNOWN KIND, with no change of state (R164). -/
def execUnknownKind (tag : Byte) (kind : Nat) (s : State) : Outcome :=
  s.managementCell (fun s => s.refuse tag kind .unknownKind)

/-- LOAD_EXTENSION (R57). -/
def execLoadExtension (tag : Byte) (entry group identity : Nat) (s : State) : Outcome :=
  s.managementCell (fun s => s.loadExtension tag entry group identity)

/-- UNLOAD_EXTENSION (R59). -/
def execUnloadExtension (tag : Byte) (entry : Nat) (s : State) : Outcome :=
  s.managementCell (fun s => s.unloadExtension tag entry)

/-- SECRET_HALF (R56, R167). -/
def execSecretHalf (tag : Byte) (half : Half) (entry : Nat) (first second : KeyWord) (s : State) : Outcome :=
  s.managementCell (fun s => s.secretHalf tag half entry first second)

/-- FORCE_SIGN_OFF (R60). -/
def execForceSignOff (tag : Byte) (entry : Nat) (s : State) : Outcome :=
  s.managementCell (fun s => s.forceSignOff tag entry)

/-- BAR (R61). -/
def execBar (tag : Byte) (entry : Nat) (s : State) : Outcome :=
  s.managementCell (fun s => s.barEntry tag entry)

/-- UNBAR (R62). -/
def execUnbar (tag : Byte) (entry : Nat) (s : State) : Outcome :=
  s.managementCell (fun s => s.unbarEntry tag entry)

/-- SET_GROUP_LIMITS (R67). -/
def execSetGroupLimits (tag : Byte) (group budget failureLimit : Nat) (s : State) : Outcome :=
  s.managementCell (fun s => s.setGroupLimits tag group budget failureLimit)

/-- SET_GROUP_TIMES (R68). -/
def execSetGroupTimes (tag : Byte) (group refresh rechallenge : Nat) (s : State) : Outcome :=
  s.managementCell (fun s => s.setGroupTimes tag group refresh rechallenge)

/-- STAGED_HALF (R124, R167). -/
def execStagedHalf (tag : Byte) (half : Half) (context : Nat) (first second : KeyWord) (s : State) : Outcome :=
  s.managementCell (fun s => s.stagedHalf tag half context first second)

/-- OPEN_CALL (R117, R118). -/
def execOpenCall (tag : Byte) (context position loopFlag : Nat) (s : State) : Outcome :=
  s.managementCell (fun s => s.openCall tag context position loopFlag)

/-- CLOSE_CALL (R121). -/
def execCloseCall (tag : Byte) (context : Nat) (s : State) : Outcome :=
  s.managementCell (fun s => s.closeCall tag context)

/-- SET_POSITION_TREATMENT (R49). -/
def execSetPositionTreatment (tag : Byte) (position treatment toneChannel : Nat) (s : State) : Outcome :=
  s.managementCell (fun s => s.setPositionTreatment tag position treatment toneChannel)

/-- SET_POSITION_GAIN (R50). -/
def execSetPositionGain (tag : Byte) (position direction gain : Nat) (s : State) : Outcome :=
  s.managementCell (fun s => s.setPositionGain tag position direction gain)

/-- LOAD_PATTERN (R156). -/
def execLoadPattern (tag : Byte) (address : Nat) (c0 c1 c2 c3 : Byte) (s : State) : Outcome :=
  s.managementCell (fun s => s.loadPattern tag address c0 c1 c2 c3)

/-- SET_PLAYOUT (R158). -/
def execSetPlayout (tag : Byte) (channel repeats mode start length : Nat) (s : State) : Outcome :=
  s.managementCell (fun s => s.setPlayout tag channel repeats mode start length)

/-- STOP_PLAYOUT (R159). -/
def execStopPlayout (tag : Byte) (channel : Nat) (s : State) : Outcome :=
  s.managementCell (fun s => s.stopPlayout tag channel)

/-- SET_DEVICE (R168). -/
def execSetDevice (tag : Byte) (setting value : Nat) (s : State) : Outcome :=
  s.managementCell (fun s => s.setDevice tag setting value)

/-- READ (R169). -/
def execRead (tag : Byte) (page index part : Nat) (s : State) : Outcome :=
  s.managementCell (fun s => s.readPage tag page index part)

/-- RESTART_CALLS: scope 1; the table has no row for a scope that is neither CALLS nor ALL, whose refusal is here
(R170; assumption 7). -/
def execRestartCalls (tag : Byte) (scope : Nat) (s : State) : Outcome :=
  s.managementCell (fun s => s.restart tag scope)

/-- RESTART_ALL (R170). -/
def execRestartAll (tag : Byte) (s : State) : Outcome :=
  s.managementCell (fun s => s.restart tag Scope.all.code)

end Sys2Proof.Machine
end

