-- ==== Sys2Proof/Machine/Frames.lean ====
section
/-! DEFINITION. The reset pin, the frame pulse and its loss, the frame boundary, and what the outbound highways carry
(chapter 1): the events that a boundary brings about are laid down in `State.boundary`, each is taken once, and those that
no command has taken when the next boundary comes are taken then (assumption 2). -/

namespace Sys2Proof.Machine

/-- HARDWARE_RESET: every table, queue, buffer, setting and count at its reset value, and STARTED queued at the rising
edge (R14). The queue of commands and the model's own counter of free bytes are no part of the chip. -/
def execHardwareReset (s : State) : Outcome :=
  .next { State.reset with pending := s.pending, freeCount := s.freeCount }

/-! ### The frame boundary (R2, R8, R9, R27, R28) -/

/-- A position at the end of a frame. A slot not yet driven was driven in a whole frame, and its code gives way to 255
unsent in a frame cut short (R34); the marks of the frame are cleared. -/
def Position.endFrame (cut : Bool) (pos : Position) : Position :=
  let pos : Position :=
    if cut then
      { pos with
        switchWaiting := if pos.switchDriven then pos.switchWaiting else 255
        lineWaiting := if pos.lineDriven then pos.lineWaiting else 255 }
    else pos.driveSwitch.driveLine
  { pos with upTaken := false, downTaken := false, switchDriven := false, lineDriven := false }

/-- The positions whose arrival in one direction had not come when a frame was cut short (R2). -/
def State.missing (s : State) (taken : Position → Bool) : List Nat :=
  (List.range 480).filter (fun p => !taken (s.position p))

/-- The channels that are RUNNING, each of which advances at a boundary (R160). -/
def State.runningChannels (s : State) : List Nat :=
  (s.channels.filter (fun c => decide (c.2.status = .running))).map Prod.fst

/-- What a boundary brings about, laid down when it comes. The Mixing Unit's reservation is made here (R27). -/
def State.boundaryAfter (s : State) (cut : Bool) : Boundary where
  cutShort := cut
  secondDue := decide (s.framePrescale = 7999)
  takeDue := true
  reportDue := true
  lineDue := List.range 4
  playoutDue := s.runningChannels
  txDue := s.openContexts
  suppliedUp := if cut then s.missing Position.upTaken else []
  suppliedDown := if cut then s.missing Position.downTaken else []

/-- The Frame Prescale after a boundary: at 7999 it waits there for the Second Count's advance, which returns it to 0
(R9). -/
def prescaleAfter (n : Nat) : Nat := if n = 7999 then n else n + 1

/-- The frame boundary itself: the frame in progress ends and the next begins (R2, R8, R9, R27, R30). -/
def State.crossBoundary (s : State) (cut : Bool) : State :=
  { s with
    frameCount := s.frameCount + 1
    framePrescale := prescaleAfter s.framePrescale
    pulse := .running
    boundary := s.boundaryAfter cut
    positions := Table.mapAll {} (Position.endFrame cut) s.positions
    reserved := s.openContexts
    completing := s.completing ++ s.inFlight
    inFlight := [] }

/-- Whether the boundary cuts a frame short: the pulse says so, unless the frame had ended or its bit clock had stopped
before the pulse was lost (R2, R13). -/
def State.cutsShort (s : State) (early : Bool) : Bool :=
  match s.pulse with
  | .awaiting | .running => early
  | .absent .afterFrame => false
  | .absent .withinFrame => true

/-- The first frame pulse after a hardware reset: a frame begins, one outbound cell per channel is taken, and no count
advances (R2, R7, R14). -/
def State.firstPulse (s : State) : State :=
  ((({ s with pulse := .running } : State).forEach (List.range 4) (fun s h => s.sendLine h false))).sendReport false

/-- A frame pulse. Which pulse it is follows from the state: the first after a hardware reset is not a boundary, and
every other is (R2; assumption 3). -/
def State.framePulse (s : State) (early : Bool) : State :=
  match s.pulse with
  | .awaiting => s.firstPulse
  | .running | .absent _ => s.finishBoundary.crossBoundary (s.cutsShort early)

/-- FIRST_FRAME_PULSE (R2, R7, R14). -/
def execFirstFramePulse (s : State) : Outcome := .next (s.framePulse false)

/-- FRAME_BOUNDARY (R2). -/
def execFrameBoundary (cutShort : Bool) (s : State) : Outcome := .next (s.framePulse cutShort)

/-- FRAME_PULSE_ABSENT: the frame in progress ends without a pulse, or its bit clock stops (R13). -/
def execFramePulseAbsent (loss : PulseLoss) (s : State) : Outcome :=
  match s.pulse with
  | .running => .next { s with pulse := .absent loss }
  | .awaiting | .absent _ => .next s

/-! ### What the outbound highways carry (R3, R4, R7, R13) -/

/-- The code driven in one slot of an outbound highway in the frame in progress, once the slot is driven: all ones while the
pulse is absent (R13), the position's code in a speech slot, the outbound cell in slots 120 to 127 of Lh and S0, and 255
there on S1 to S3 (R4, R7). That all ones are driven from the rising edge of RSTN until the first pulse, for which R14 and
R13 give nothing, is a DESIGN CHOICE (assumption 19). -/
def State.driven (s : State) (side : Side) (highway slot : Nat) : Byte :=
  match s.pulse with
  | .awaiting | .absent _ => 255
  | .running =>
      match side with
      | .line =>
          if slot < 120 then (s.position (positionOf highway slot)).lineSending
          else (s.highway highway).sending.bytes.getD (slot - 120) 0
      | .switch =>
          if slot < 120 then (s.position (positionOf highway slot)).switchSending
          else if highway = 0 then s.reportSending.bytes.getD (slot - 120) 0
          else 255

end Sys2Proof.Machine
end

