-- ==== Sys2Proof/Machine/Dispatch.lean ====
section
/-! DEFINITION. The meaning of every command: one arm per constructor, in the order of spec/opcode_table.json. -/

namespace Sys2Proof.Machine

/-- The effect of a command on everything but the queue of commands. -/
def exec (i : Instr) (s : State) : Host.Outcome State Fault Refusal :=
  match i with
  | .hardwareReset => Sys2Proof.Machine.execHardwareReset s
  | .firstFramePulse => Sys2Proof.Machine.execFirstFramePulse s
  | .frameBoundary cutShort => Sys2Proof.Machine.execFrameBoundary cutShort s
  | .framePulseAbsent loss => Sys2Proof.Machine.execFramePulseAbsent loss s
  | .secondCountAdvance => Sys2Proof.Machine.execSecondCountAdvance s
  | .verificationTake => Sys2Proof.Machine.execVerificationTake s
  | .verificationComplete => Sys2Proof.Machine.execVerificationComplete s
  | .lineReplySend highway => Sys2Proof.Machine.execLineReplySend highway s
  | .reportSend => Sys2Proof.Machine.execReportSend s
  | .upstreamArrival position arrival => Sys2Proof.Machine.execUpstreamArrival position arrival s
  | .downstreamArrival position arrival => Sys2Proof.Machine.execDownstreamArrival position arrival s
  | .txFrameAdvance context => Sys2Proof.Machine.execTxFrameAdvance context s
  | .playoutAdvance channel => Sys2Proof.Machine.execPlayoutAdvance channel s
  | .holdOffDeadline position => Sys2Proof.Machine.execHoldOffDeadline position s
  | .answerDeadline entry => Sys2Proof.Machine.execAnswerDeadline entry s
  | .refreshLapse entry => Sys2Proof.Machine.execRefreshLapse entry s
  | .rechallengeDeadline entry => Sys2Proof.Machine.execRechallengeDeadline entry s
  | .lineIdle highway => Sys2Proof.Machine.execLineIdle highway s
  | .lineCellDiscarded highway kind slot => Sys2Proof.Machine.execLineCellDiscarded highway kind slot s
  | .signOn highway slot identity => Sys2Proof.Machine.execSignOn highway slot identity s
  | .answer highway slot response => Sys2Proof.Machine.execAnswer highway slot response s
  | .keepalive highway slot => Sys2Proof.Machine.execKeepalive highway slot s
  | .signOff highway slot => Sys2Proof.Machine.execSignOff highway slot s
  | .managementIdle => Sys2Proof.Machine.execManagementIdle s
  | .unknownKind tag kind => Sys2Proof.Machine.execUnknownKind tag kind s
  | .loadExtension tag entry group identity => Sys2Proof.Machine.execLoadExtension tag entry group identity s
  | .unloadExtension tag entry => Sys2Proof.Machine.execUnloadExtension tag entry s
  | .secretHalf tag half entry first second => Sys2Proof.Machine.execSecretHalf tag half entry first second s
  | .forceSignOff tag entry => Sys2Proof.Machine.execForceSignOff tag entry s
  | .bar tag entry => Sys2Proof.Machine.execBar tag entry s
  | .unbar tag entry => Sys2Proof.Machine.execUnbar tag entry s
  | .setGroupLimits tag group budget failureLimit => Sys2Proof.Machine.execSetGroupLimits tag group budget failureLimit s
  | .setGroupTimes tag group refresh rechallenge => Sys2Proof.Machine.execSetGroupTimes tag group refresh rechallenge s
  | .stagedHalf tag half context first second => Sys2Proof.Machine.execStagedHalf tag half context first second s
  | .openCall tag context position loopFlag => Sys2Proof.Machine.execOpenCall tag context position loopFlag s
  | .closeCall tag context => Sys2Proof.Machine.execCloseCall tag context s
  | .setPositionTreatment tag position treatment toneChannel => Sys2Proof.Machine.execSetPositionTreatment tag position treatment toneChannel s
  | .setPositionGain tag position direction gain => Sys2Proof.Machine.execSetPositionGain tag position direction gain s
  | .loadPattern tag address c0 c1 c2 c3 => Sys2Proof.Machine.execLoadPattern tag address c0 c1 c2 c3 s
  | .setPlayout tag channel repeats mode start length => Sys2Proof.Machine.execSetPlayout tag channel repeats mode start length s
  | .stopPlayout tag channel => Sys2Proof.Machine.execStopPlayout tag channel s
  | .setDevice tag setting value => Sys2Proof.Machine.execSetDevice tag setting value s
  | .read tag page index part => Sys2Proof.Machine.execRead tag page index part s
  | .restartCalls tag scope => Sys2Proof.Machine.execRestartCalls tag scope s
  | .restartAll tag => Sys2Proof.Machine.execRestartAll tag s
  | .waitingCodeSent position side => Sys2Proof.Machine.execWaitingCodeSent position side s

end Sys2Proof.Machine
end

