-- ==== Sys2Proof/Safety.lean ====
section
/-! DEFINITION. What a sound state of the 4120 is, in the terms the statements use: every field in the range the manual
gives it, the queues within their bounds, the pauses at their marks, and the laws that tie the tables to one another. -/

namespace Sys2Proof.Machine

/-! ### Ranges (R32, R52, R65, R92, R114, R157, R168) -/

/-- An optional index below a bound. -/
def below (n : Nat) : Option Nat → Bool
  | none => true
  | some i => decide (i < n)

/-- A position record within the ranges of R32. -/
def Position.inRange (p : Position) : Bool :=
  decide (p.toneChannel ≤ 15) && decide (p.upGain ≤ 512) && decide (p.downGain ≤ 512) && below 1024 p.owner &&
    below 1024 p.pending && below 256 p.context && decide (p.attempts ≤ 10) && decide (p.upClamps ≤ 65535) &&
    decide (p.downClamps ≤ 65535)

/-- An entry within the ranges of R52. -/
def Entry.inRange (e : Entry) : Bool :=
  decide (e.identity ≤ 99999999) && decide (e.group ≤ 15) && below 480 e.home &&
    below 480 (e.candidate.map Candidate.position) && decide (e.failures ≤ 7) && below 256 e.context

/-- A group within the ranges of R65. -/
def Group.inRange (g : Group) : Bool :=
  decide (g.budget ≤ 256) && decide (g.inUse ≤ 256) && decide (1 ≤ g.refresh ∧ g.refresh ≤ 4095) &&
    decide (g.rechallenge ≤ 32767) && decide (1 ≤ g.failureLimit ∧ g.failureLimit ≤ 7)

/-- A context within the ranges of R114; a context that is aligned in any way has missed at most six bursts (R148). -/
def Context.inRange (c : Context) : Bool :=
  below 480 (c.call.map Call.position) && below 1024 (c.call.map Call.entry) && decide (c.misses ≤ 7) &&
    (decide (c.sync = .hunt) || decide (c.misses ≤ 6)) && decide (c.slips ≤ 255) && decide (c.window.length ≤ 8)

/-- The repeats remaining a status allows (R157). -/
def repeatsInRange : PlayoutStatus → Repeats → Bool
  | .stopped, .endless | .running, .endless => true
  | .stopped, .count n | .running, .count n => decide (1 ≤ n ∧ n ≤ 255)
  | .countDone, .endless => false
  | .countDone, .count n => decide (n = 0)

/-- A playout channel within the ranges of R157. -/
def Channel.inRange (c : Channel) : Bool :=
  decide (c.start ≤ 8191) && decide (1 ≤ c.length) && decide (c.start + c.length ≤ 8192) &&
    decide (c.start ≤ c.position ∧ c.position ≤ c.start + c.length - 1) && repeatsInRange c.status c.repeats

/-- A line cell that is idle or names a speech slot (R71). -/
def LineCell.inRange : LineCell → Bool
  | .idle => true
  | .reply slot _ => decide (slot < 120)

/-- A highway whose cells name speech slots and whose queue and Drop Count are within their bounds (R71, R73). -/
def Highway.inRange (h : Highway) : Bool :=
  decide (h.queue.length ≤ 16) && h.queue.all LineCell.inRange && h.sending.inRange && decide (h.drops ≤ 65535)

/-- The Settings within the ranges of R168. -/
def Settings.inRange (x : Settings) : Bool :=
  isSyncSpan x.syncSpan && decide (x.rekeyMultiple ≤ 255) && decide (1 ≤ x.missLimit ∧ x.missLimit ≤ 7) &&
    decide (800 ≤ x.answerWindow ∧ x.answerWindow ≤ 65535) && decide (8 ≤ x.baseHoldOff ∧ x.baseHoldOff ≤ 4096) &&
    below 16 x.challengeTone && below 16 x.securingTone && below 16 x.keyMissTone &&
    x.levels.toList.all (fun l => decide (l ≤ 7))

/-- A verification item within the ranges of R92. -/
def VerifyItem.inRange (i : VerifyItem) : Bool := decide (i.entry < 1024) && decide (i.position < 480)

/-- A pair target that names an entry or a context of the part (R166). -/
def PairTarget.inRange : PairTarget → Bool
  | .secret e => decide (e < 1024)
  | .stagedKey j => decide (j < 256)

/-- The events of a boundary name positions, contexts, channels and highways of the part. -/
def Boundary.inRange (b : Boundary) : Bool :=
  b.lineDue.all (fun h => decide (h < 4)) && b.playoutDue.all (fun c => decide (c < 16)) &&
    b.txDue.all (fun j => decide (j < 256)) && b.suppliedUp.all (fun p => decide (p < 480)) &&
    b.suppliedDown.all (fun p => decide (p < 480))

/-- Every table is in its canonical form and has no more records than the part. -/
def State.canonical (s : State) : Bool :=
  Table.wf 480 {} s.positions && Table.wf 1024 {} s.entries && Table.wf 16 {} s.groups && Table.wf 256 {} s.contexts &&
    Table.wf 16 {} s.channels && Table.wf 4 {} s.highways && Memory.wf s.pattern

/-- Every record of every table is within its ranges. -/
def State.recordsInRange (s : State) : Bool :=
  s.positions.all (fun x => x.2.inRange) && s.entries.all (fun x => x.2.inRange) &&
    s.groups.all (fun x => x.2.inRange) && s.contexts.all (fun x => x.2.inRange) &&
    s.channels.all (fun x => x.2.inRange) && s.highways.all (fun x => x.2.inRange)

/-- Everything outside the tables is within its range; the commands that wait are well formed. -/
def State.restInRange (s : State) : Bool :=
  s.pending.all Instr.wellFormed && decide (s.framePrescale ≤ 7999) && s.boundary.inRange &&
    s.reserved.all (fun j => decide (j < 256)) && s.inFlight.all (fun f => f.item.inRange) &&
    s.completing.all (fun f => f.item.inRange) && s.verifyQueue.all VerifyItem.inRange &&
    s.pairBuffer.all (fun h => h.target.inRange) && s.settings.inRange &&
    s.reportQueue.all (fun c => decide (c.level ≤ 6)) && decide (s.lostReports ≤ 65535)

/-- A well-formed state. -/
def State.wf (s : State) : Bool := s.canonical && s.recordsInRange && s.restInRange

/-! ### Bounds and marks (R28, R92, R94, R172, R173) -/

/-- The Verification Queue and the Report Queue within their capacities, and the outputs of a frame within 520: two for
each reserved context and four for each verification taken (R28, R92, R172). -/
def State.bounded (s : State) : Prop :=
  s.verifyQueue.length ≤ 32 ∧ s.reportQueue.length ≤ 64 ∧ 2 * s.reserved.length + 4 * s.inFlight.length ≤ 520 ∧
    (s.boundary.takeDue = true → s.inFlight = [])

/-- A pause that is clear stands below its upper mark, and one that is set stands above its lower mark (R94, R173). -/
def State.pausesAtMarks (s : State) : Prop :=
  (s.verifyPause = false → s.verifyQueue.length ≤ 23) ∧ (s.verifyPause = true → 9 ≤ s.verifyQueue.length) ∧
    (s.reportPause = false → s.reportQueue.length ≤ 47) ∧ (s.reportPause = true → 17 ≤ s.reportQueue.length)

/-! ### Silence toward the switch (R36) -/

/-- A position that may send the switch nothing but 255 holds 255 to send (R36). -/
def Position.silent (p : Position) : Prop :=
  p.owner = none → p.requested ≠ .switchLoop → p.switchWaiting = 255

/-- The silence law at every position (R36). -/
def State.silent (s : State) : Prop := ∀ p, (s.position p).silent

/-! ### The staged key (R117, R124, R125, R135) -/

/-- A staged key never has both marks set, a FREE context's has none, and the marks of an OPEN context's say which side
stands one generation ahead (R117, R124, R135). -/
def Context.keysAgree (c : Context) : Prop :=
  match c.call, c.staged with
  | none, none => True
  | none, some k => k.txTaken = false ∧ k.rxTaken = false
  | some _, none => c.txGeneration = c.rxGeneration
  | some _, some k =>
      match k.txTaken, k.rxTaken with
      | false, false => c.txGeneration = c.rxGeneration
      | true, false => c.txGeneration = c.rxGeneration + 1
      | false, true => c.rxGeneration = c.txGeneration + 1
      | true, true => False

/-- The law of staged keys at every context. -/
def State.keysAgree (s : State) : Prop := ∀ j, (s.context j).keysAgree

/-! ### The laws between the tables -/

/-- Owners and homes name each other: a position's owner is the entry ADMITTED with it as its home, and an entry has a
home exactly while it is ADMITTED (R54, R63). -/
def State.homesAgree (s : State) : Prop :=
  (∀ p e, (s.position p).owner = some e ↔ (s.entry e).state = .admitted ∧ (s.entry e).home = some p) ∧
    ∀ e, (s.entry e).home ≠ none ↔ (s.entry e).state = .admitted

/-- An entry's candidate is a RENEW (R75). -/
def Entry.renewing (e : Entry) : Prop := ∃ c, e.candidate = some c ∧ c.kind = .renew

/-- The deadlines of an admission: absent outside one; the refresh deadline present in one except while a RENEW halts it
(R54, R63, R82, R112). -/
def State.deadlinesAgree (s : State) : Prop :=
  ∀ e, ((s.entry e).state ≠ .admitted → (s.entry e).refresh = none ∧ (s.entry e).rechallenge = none) ∧
    ((s.entry e).state = .admitted → ((s.entry e).refresh = none ↔ (s.entry e).renewing))

/-- A candidate's kind agrees with its entry (R54, R76, R82). -/
def Entry.kindAgrees (e : Entry) (c : Candidate) : Prop :=
  match c.kind with
  | .first => e.state = .absent
  | .move => e.state = .admitted ∧ e.home ≠ some c.position
  | .renew => e.state = .admitted ∧ e.home = some c.position

/-- Candidates and pending entries name each other, and each candidate's kind agrees with its entry (R54, R75). -/
def State.candidatesAgree (s : State) : Prop :=
  (∀ p e, (s.position p).pending = some e ↔ ∃ c, (s.entry e).candidate = some c ∧ c.position = p) ∧
    ∀ e c, (s.entry e).candidate = some c → (s.entry e).kindAgrees c

/-- A context is OPEN only while its entry is ADMITTED with the context's position as its home; the context, the
position and the entry name one another; and no looped position has a call (R38, R114, R116). -/
def State.callsAgree (s : State) : Prop :=
  (∀ j c, (s.context j).call = some c →
      (s.position c.position).context = some j ∧ (s.entry c.entry).context = some j ∧
        (s.entry c.entry).state = .admitted ∧ (s.entry c.entry).home = some c.position) ∧
    (∀ p j, (s.position p).context = some j → ∃ c, (s.context j).call = some c ∧ c.position = p) ∧
    (∀ e j, (s.entry e).context = some j → ∃ c, (s.context j).call = some c ∧ c.entry = e) ∧
    ∀ p, (s.position p).context ≠ none → (s.position p).requested.isLoop = false

/-- An OPEN context whose entry belongs to group `g` (R66). -/
def State.countedIn (s : State) (g : Nat) (c : Context) : Bool :=
  c.call.any (fun call => decide ((s.entry call.entry).group = g))

/-- The number of OPEN contexts whose entry belongs to group `g` (R66). -/
def State.openIn (s : State) (g : Nat) : Nat := s.contexts.countP (fun x => s.countedIn g x.2)

/-- A group's in-use count is its number of OPEN contexts and never exceeds its budget (R66). -/
def State.budgetsAgree (s : State) : Prop :=
  ∀ g, (s.group g).inUse = s.openIn g ∧ (s.group g).inUse ≤ (s.group g).budget

/-- The items that have not completed, wherever they wait. -/
def State.items (s : State) : List VerifyItem :=
  s.verifyQueue ++ s.inFlight.map FlightItem.item ++ s.completing.map FlightItem.item

/-- The live items (R92). -/
def State.liveItems (s : State) : List VerifyItem := s.items.filter (fun i => !i.isVoid)

/-- A live item's candidate: QUEUED, for its entry, at its position, with its challenge (R95). -/
def State.itemHasCandidate (s : State) (i : VerifyItem) : Prop :=
  (s.entry i.entry).candidate.map (fun c => (c.position, c.challenge, c.stage)) =
    some (i.position, i.challenge, Stage.queued)

/-- Every live item has its candidate, and there is at most one live item for an entry (R92, R95). -/
def State.itemsAgree (s : State) : Prop :=
  (∀ i ∈ s.liveItems, s.itemHasCandidate i) ∧ (s.liveItems.map VerifyItem.entry).Nodup

/-- No two loaded entries carry the same identity (R55). -/
def State.identitiesUnique (s : State) : Prop :=
  ∀ e f, (s.entry e).loaded = true → (s.entry f).loaded = true → (s.entry e).identity = (s.entry f).identity → e = f

/-- The tables agree with one another. -/
def State.agrees (s : State) : Prop :=
  s.homesAgree ∧ s.deadlinesAgree ∧ s.candidatesAgree ∧ s.callsAgree ∧ s.budgetsAgree ∧ s.itemsAgree ∧
    s.identitiesUnique

/-! ### The terms of the statements -/

/-- The pulse is not absent, so that cells are delivered, codes arrive and the events of a boundary take place (R13). -/
def State.pulsed (s : State) : Prop := s.pulse.isAbsent = false

/-- Two states hold the same outbound management cells (R171 to R173). -/
def SameReports (t u : State) : Prop :=
  t.reportQueue = u.reportQueue ∧ t.reportPause = u.reportPause ∧ t.lostReports = u.lostReports

/-- A cell with the lowest level number present, the oldest of its level, leaves a queue (R172). -/
def SelectedFrom (q : List QueuedCell) (c : QueuedCell) (rest : List QueuedCell) : Prop :=
  ∃ before after, q = before ++ c :: after ∧ rest = before ++ after ∧ (∀ d ∈ before, c.level < d.level) ∧
    ∀ d ∈ after, c.level ≤ d.level

/-- The Report Queue's selection leaves for the frame that begins, or an idle cell is made (R7, R172, R173). -/
def TakesReport (s t : State) : Prop :=
  (s.reportQueue = [] ∧ t.reportQueue = [] ∧ t.reportSending = .idle ∧ t.reportPause = s.reportPause) ∨
    ∃ c, SelectedFrom s.reportQueue c t.reportQueue ∧ t.reportSending = c.cell ∧
      t.reportPause = (s.reportPause && decide (t.reportQueue.length ≠ 16))

/-- The oldest cell of a Line Reply Queue leaves for the frame that begins, or an idle cell is made (R7). -/
def Highway.sent (h : Highway) : Highway :=
  match h.queue with
  | [] => { h with sending := .idle }
  | c :: rest => { h with queue := rest, sending := c }

/-- The entry's candidate stands at a position. -/
def Entry.candidateAt (e : Entry) (q : Nat) : Bool := e.candidate.any (fun c => decide (c.position = q))

/-- The entry's candidate is QUEUED. -/
def Entry.candidateQueued (e : Entry) : Bool := e.candidate.any (fun c => decide (c.stage = .queued))

/-- The pending field of a position once an entry's candidate has left (R75). -/
def Position.pendingWithout (pos : Position) (e : Entry) (q : Nat) : Option Nat :=
  if e.candidateAt q then none else pos.pending

/-- What an unbinding leaves to send toward the switch (R36, R63). -/
def Position.silenced (pos : Position) : Byte := if pos.requested = .switchLoop then pos.switchWaiting else 255

/-- The call of entry `e`, if it has one, is closed: its context FREE and the group's in-use count one lower
(R66, R120). -/
def CallEnded (s t : State) (e : Nat) : Prop :=
  (∀ j, t.context j =
      if (s.entry e).context = some j then { s.context j with call := none, staged := none, window := [] }
      else s.context j) ∧
    (∀ g, t.group g =
      if (s.entry e).context ≠ none ∧ g = (s.entry e).group then { s.group g with inUse := (s.group g).inUse - 1 }
      else s.group g) ∧
    t.reserved =
      (match (s.entry e).context with
       | none => s.reserved
       | some j => s.reserved.erase j)

/-- The items of entry `e` once its candidate has been dropped: void if it was QUEUED (R58, R95). -/
def ItemsDropped (s t : State) (e : Nat) : Prop :=
  let change (i : VerifyItem) : VerifyItem :=
    if (s.entry e).candidateQueued = true ∧ i.entry = e then { i with isVoid := true } else i
  t.verifyQueue = s.verifyQueue.map change ∧
    t.inFlight = s.inFlight.map (fun f => { f with item := change f.item }) ∧
    t.completing = s.completing.map (fun f => { f with item := change f.item })

/-- The admission of entry `e`, ADMITTED at `p`, has ended: it holds no home, candidate, deadline or call and is in the
state given; its position has lost it; and nothing else has changed but the cells queued (R58, R63, R120). -/
def AdmissionEnded (s t : State) (e p : Nat) (state : EntryState) : Prop :=
  t.entry e =
      { s.entry e with
        state := state, home := none, candidate := none, refresh := none, rechallenge := none, context := none } ∧
    (∀ f, f ≠ e → t.entry f = s.entry f) ∧
    t.position p =
      { s.position p with
        owner := none, context := none, pending := (s.position p).pendingWithout (s.entry e) p
        switchWaiting := (s.position p).silenced } ∧
    (∀ q, q ≠ p → t.position q =
      { s.position q with pending := (s.position q).pendingWithout (s.entry e) q }) ∧
    CallEnded s t e ∧ ItemsDropped s t e ∧
    t =
      { s with
        entries := t.entries, positions := t.positions, contexts := t.contexts, groups := t.groups
        reserved := t.reserved, verifyQueue := t.verifyQueue, inFlight := t.inFlight, completing := t.completing
        highways := t.highways, reportQueue := t.reportQueue, reportPause := t.reportPause
        lostReports := t.lostReports }

/-- The candidate of entry `e`, if it holds one, has been dropped: the entry and its position no longer name it, its
item is void if it was QUEUED, and nothing else has changed (R58). -/
def CandidateDropped (s t : State) (e : Nat) : Prop :=
  t.entry e = { s.entry e with candidate := none } ∧ (∀ f, f ≠ e → t.entry f = s.entry f) ∧
    (∀ q, t.position q = { s.position q with pending := (s.position q).pendingWithout (s.entry e) q }) ∧
    ItemsDropped s t e ∧
    t =
      { s with
        entries := t.entries, positions := t.positions, verifyQueue := t.verifyQueue, inFlight := t.inFlight
        completing := t.completing }

/-- CALL CLOSED for the call of entry `e` at `p`, if it has one (R120). -/
def State.reportClosed (s u : State) (e p : Nat) (cause : CloseCause) : State :=
  match (s.entry e).context with
  | none => u
  | some j => u.report (.callClosed j p e cause)

/-- The code an arrival brings: what the highway carried, or 255 (R2, R3). -/
def arrivalCode : Arrival → Byte
  | .carried code => code
  | .supplied => 255

/-- The position as an arrival finds it: a slot that carries a code is first driven on both sides (R34). -/
def Position.atArrival (pos : Position) : Arrival → Position
  | .carried _ => pos.driveSwitch.driveLine
  | .supplied => pos

/-- An upstream arrival that the state allows: carried with no supplied arrival outstanding, or supplied and
outstanding (R2, R34). -/
def State.upArrives (s : State) (p : Nat) : Arrival → Prop
  | .carried _ => p ∉ s.boundary.suppliedUp ∧ p ∉ s.boundary.suppliedDown
  | .supplied => p ∈ s.boundary.suppliedUp

/-- A downstream arrival that the state allows: supplied and outstanding, or carried once the boundary that began its frame
owes it nothing: no supplied arrival, no playout advance and no take of the management cell (R2, R7, R34, R160). -/
def State.downArrives (s : State) (p : Nat) : Arrival → Prop
  | .carried _ =>
      p ∉ s.boundary.suppliedUp ∧ p ∉ s.boundary.suppliedDown ∧ s.boundary.playoutDue = [] ∧
        s.boundary.reportDue = false
  | .supplied => p ∈ s.boundary.suppliedDown

/-- The state with an upstream arrival marked as processed, its position written. -/
def State.afterUp (s : State) (p : Nat) (a : Arrival) (pos : Position) : State :=
  match a with
  | .carried _ => s.setPosition p { pos with upTaken := true }
  | .supplied =>
      ({ s with boundary := { s.boundary with suppliedUp := s.boundary.suppliedUp.erase p } } : State).setPosition p pos

/-- The state with a downstream arrival marked as processed, its position written. -/
def State.afterDown (s : State) (p : Nat) (a : Arrival) (pos : Position) : State :=
  match a with
  | .carried _ => s.setPosition p { pos with downTaken := true }
  | .supplied =>
      ({ s with boundary := { s.boundary with suppliedDown := s.boundary.suppliedDown.erase p } } : State).setPosition p
        pos

/-- The position names no OPEN context (R38). -/
def State.noCallAt (s : State) (p : Nat) : Prop :=
  ∀ j, (s.position p).context = some j → (s.context j).call = none

/-- The position is in a scrambled call: an owner, no loop, and the OPEN context `j` (R38). -/
def State.inCall (s : State) (p j : Nat) (call : Call) : Prop :=
  (s.position p).owner ≠ none ∧ (s.position p).requested.isLoop = false ∧ (s.position p).context = some j ∧
    (s.context j).call = some call

/-- The input of the receive side: the arrival's code, or under CONTEXT LOOP the switch-side code being sent; at an
arrival supplied at a boundary, 255 in either case (R139, R142, R152). -/
def State.inputCode (s : State) (p j : Nat) (a : Arrival) : Byte :=
  match a with
  | .carried code => if (s.context j).loop then ((s.position p).atArrival a).switchSending else code
  | .supplied => 255

/-- The context after steps 3 and 4 of an arrival: numbered, and the input appended with its mark clear (R142). -/
def Context.appended (c : Context) (code : Byte) : Context :=
  { c with
    rxFrame := if c.sync = .hunt then c.rxFrame else c.rxFrame + 1
    window := (if c.window.length < 8 then c.window else c.window.drop 1) ++ [⟨code, false⟩] }

/-- A downstream arrival changes nothing but the position's record, its context and the reports. -/
def ReceiveFrame (s t : State) (p j : Nat) : Prop :=
  (∀ q, q ≠ p → t.position q = s.position q) ∧ (∀ k, k ≠ j → t.context k = s.context k) ∧
    t =
      { s with
        positions := t.positions, contexts := t.contexts, boundary := t.boundary, reportQueue := t.reportQueue
        reportPause := t.reportPause, lostReports := t.lostReports }

/-- The hold-off of a reply with backoff at `p` (R78). -/
def State.nextHoldOff (s : State) (p : Nat) : Nat := s.settings.baseHoldOff * 2 ^ (s.position p).attempts

/-- A reply with backoff at `p`: the hold-off deadline stored, the attempt count advanced, and the reply queued (R78). -/
def State.repliedWithBackoff (s : State) (p : Nat) (reply : Nat → LineReply) : State :=
  (s.setPosition p
      { s.position p with
        holdOff := some (s.frameCount + BitVec.ofNat 24 (s.nextHoldOff p))
        attempts := min 10 ((s.position p).attempts + 1) }).replyTo p (reply (s.nextHoldOff p))

/-- The candidate of entry `e` at `p` has completed or timed out: the entry and its position no longer name it (R75). -/
def State.candidateLeft (s : State) (e p : Nat) : State :=
  (s.setEntry e { s.entry e with candidate := none }).setPosition p { s.position p with pending := none }

/-- Entry `e` stands ADMITTED at `p`, its deadlines loaded from its group and its counts at 0, with WELCOME and ADMITTED
queued (R97, R99 to R101). -/
def State.admittedAt (s : State) (e p : Nat) (renew : Bool) : State :=
  let g := s.group (s.entry e).group
  (((s.setEntry e
      { s.entry e with
        state := .admitted, home := some p, failures := 0
        refresh := some (s.secondCount + BitVec.ofNat 16 g.refresh)
        rechallenge := if g.rechallenge = 0 then none else some (s.secondCount + BitVec.ofNat 16 g.rechallenge) }).setPosition
      p { s.position p with owner := some e, attempts := 0 }).replyTo p (.welcome g.refresh)).report (.admitted e p renew)

/-- A REFUSED answer and nothing else (R164, R165). -/
def State.refused (s : State) (tag : Byte) (kind : Nat) (reason : Reason) : State :=
  s.joinCell 0 (.refused tag kind reason)

/-- An ACCEPTED answer (R164, R165). -/
def State.accepted (s : State) (tag : Byte) (values : Accepted) : State := s.joinCell 0 (.accepted tag values)

/-- A loaded entry other than `e` holds the identity (R57). -/
def State.identityElsewhere (s : State) (e identity : Nat) : Prop :=
  ∃ f, f ≠ e ∧ (s.entry f).loaded = true ∧ (s.entry f).identity = identity

/-- The number by which a page shows the staged key: absent, present with no mark, tx-taken, rx-taken (R177). -/
def Context.shownStaged (c : Context) (shown : Nat) : Prop :=
  (c.staged = none ∧ shown = 0) ∨
    ∃ k, c.staged = some k ∧
      ((k.txTaken = false ∧ k.rxTaken = false ∧ shown = 1) ∨ (k.txTaken = true ∧ shown = 2) ∨
        (k.txTaken = false ∧ k.rxTaken = true ∧ shown = 3))

/-- A key whose words are hidden. -/
def hiddenKey (_ : Key) : Key := ⟨0, 0, 0, 0⟩

/-- An entry with the words of its secret hidden. -/
def Entry.hidden (e : Entry) : Entry := { e with secret := e.secret.map hiddenKey }

/-- A context with the words of its call keys and its staged key hidden. -/
def Context.hidden (c : Context) : Context :=
  { c with
    call := c.call.map (fun call => { call with txKey := hiddenKey call.txKey, rxKey := hiddenKey call.rxKey })
    staged := c.staged.map (fun k => { k with key := hiddenKey k.key }) }

/-- Two states that differ only in the words of keys and in the Pair Buffer. -/
def SameButKeys (s u : State) : Prop :=
  (∀ e, (s.entry e).hidden = (u.entry e).hidden) ∧ (∀ j, (s.context j).hidden = (u.context j).hidden) ∧
    u = { s with entries := u.entries, contexts := u.contexts, pairBuffer := u.pairBuffer }

/-- Every event of the last boundary has been taken, and no deadline stands at its count. -/
def State.quiet (s : State) : Prop :=
  s.boundary = { cutShort := s.boundary.cutShort } ∧ s.completing = [] ∧
    (∀ p, (s.position p).holdOff ≠ some s.frameCount) ∧
    (∀ e c, (s.entry e).candidate = some c → c.stage ≠ .awaiting s.frameCount) ∧
    (∀ e, (s.entry e).refresh ≠ some s.secondCount) ∧ ∀ e, (s.entry e).rechallenge ≠ some s.secondCount

/-- No arrival is owed by a cut-short frame (R2). -/
def State.arrivalsDone (s : State) : Prop := s.boundary.suppliedUp = [] ∧ s.boundary.suppliedDown = []

/-- Nor has the Second Count still to advance, an item to complete or the Mixing Unit to take (R9, R28, R30). -/
def State.verificationsDone (s : State) : Prop :=
  s.arrivalsDone ∧ s.boundary.secondDue = false ∧ s.completing = [] ∧ s.boundary.takeDue = false

/-- The hold-off of a position stands at its deadline (R77). -/
def State.holdOffDue (s : State) (p : Nat) : Prop := (s.position p).holdOff = some s.frameCount

/-- The candidate of an entry stands at its answer deadline (R86). -/
def State.answerDue (s : State) (e : Nat) : Prop :=
  ∃ c, (s.entry e).candidate = some c ∧ c.stage = .awaiting s.frameCount

/-- An admission stands at its refresh deadline (R108). -/
def State.refreshDue (s : State) (e : Nat) : Prop := (s.entry e).refresh = some s.secondCount

/-- An admission stands at its re-challenge deadline (R110). -/
def State.rechallengeDue (s : State) (e : Nat) : Prop := (s.entry e).rechallenge = some s.secondCount

/-- Nor does a hold-off or an answer deadline stand at the Frame Count. -/
def State.frameDeadlinesDone (s : State) : Prop :=
  s.verificationsDone ∧ (∀ p, ¬ s.holdOffDue p) ∧ ∀ e, ¬ s.answerDue e

/-- Nor does a refresh or a re-challenge deadline stand at the Second Count. -/
def State.deadlinesDone (s : State) : Prop :=
  s.frameDeadlinesDone ∧ (∀ e, ¬ s.refreshDue e) ∧ ∀ e, ¬ s.rechallengeDue e

/-- The index is the lowest of those due. -/
def Lowest (due : Nat → Prop) (i : Nat) : Prop := due i ∧ ∀ k, k < i → ¬ due k

/-- The command of the event that the last boundary owes next, in the order of assumption 2: supplied arrivals, the Second
Count, completions, the take, hold-offs, answer, refresh and re-challenge deadlines, transmit sides, playout channels, line
cells, the management cell. -/
def State.nextDue (s : State) : Instr → Prop
  | .upstreamArrival p .supplied => s.boundary.suppliedUp.head? = some p.val
  | .downstreamArrival p .supplied =>
      s.boundary.suppliedUp = [] ∧ s.boundary.suppliedDown.head? = some p.val
  | .secondCountAdvance => s.arrivalsDone ∧ s.boundary.secondDue = true
  | .verificationComplete => s.arrivalsDone ∧ s.boundary.secondDue = false ∧ s.completing ≠ []
  | .verificationTake =>
      s.arrivalsDone ∧ s.boundary.secondDue = false ∧ s.completing = [] ∧ s.boundary.takeDue = true
  | .holdOffDeadline p => s.verificationsDone ∧ Lowest s.holdOffDue p.val
  | .answerDeadline e => s.verificationsDone ∧ (∀ p, ¬ s.holdOffDue p) ∧ Lowest s.answerDue e.val
  | .refreshLapse e => s.frameDeadlinesDone ∧ Lowest s.refreshDue e.val
  | .rechallengeDeadline e => s.frameDeadlinesDone ∧ (∀ f, ¬ s.refreshDue f) ∧ Lowest s.rechallengeDue e.val
  | .txFrameAdvance j => s.deadlinesDone ∧ s.boundary.txDue.head? = some j.val
  | .playoutAdvance c =>
      s.deadlinesDone ∧ s.boundary.txDue = [] ∧ s.boundary.playoutDue.head? = some c.val
  | .lineReplySend h =>
      s.deadlinesDone ∧ s.boundary.txDue = [] ∧ s.boundary.playoutDue = [] ∧ s.boundary.lineDue.head? = some h.val
  | .reportSend =>
      s.deadlinesDone ∧ s.boundary.txDue = [] ∧ s.boundary.playoutDue = [] ∧ s.boundary.lineDue = [] ∧
        s.boundary.reportDue = true
  | .upstreamArrival _ (.carried _) | .downstreamArrival _ (.carried _) | .waitingCodeSent .. | .hardwareReset
  | .firstFramePulse | .frameBoundary _ | .framePulseAbsent _ | .lineIdle _ | .lineCellDiscarded .. | .signOn ..
  | .answer .. | .keepalive .. | .signOff .. | .managementIdle | .unknownKind .. | .loadExtension ..
  | .unloadExtension .. | .secretHalf .. | .forceSignOff .. | .bar .. | .unbar .. | .setGroupLimits ..
  | .setGroupTimes .. | .stagedHalf .. | .openCall .. | .closeCall .. | .setPositionTreatment ..
  | .setPositionGain .. | .loadPattern .. | .setPlayout .. | .stopPlayout .. | .setDevice .. | .read ..
  | .restartCalls .. | .restartAll .. => False

/-- A cell can be delivered, and the boundary that began the frame has brought about all that it brings about
(R7, R10, R13, R77). -/
def State.inFrame (s : State) : Prop := s.pulsed ∧ s.quiet

/-- The commands that are cells with an effect or an answer; what the last boundary brings about comes before each of them
(R6, R70, R164; assumption 2). A line cell that concerns no position is none of them. -/
def isCell : Instr → Bool
  | .signOn _ slot _ | .answer _ slot _ | .keepalive _ slot | .signOff _ slot => decide (slot < 120)
  | .unknownKind .. | .loadExtension .. | .unloadExtension .. | .secretHalf .. | .forceSignOff .. | .bar .. | .unbar ..
  | .setGroupLimits .. | .setGroupTimes .. | .stagedHalf .. | .openCall .. | .closeCall .. | .setPositionTreatment ..
  | .setPositionGain .. | .loadPattern .. | .setPlayout .. | .stopPlayout .. | .setDevice .. | .read ..
  | .restartCalls .. | .restartAll .. => true
  | .hardwareReset | .firstFramePulse | .frameBoundary _ | .framePulseAbsent _ | .secondCountAdvance
  | .verificationTake | .verificationComplete | .lineReplySend _ | .reportSend | .upstreamArrival ..
  | .downstreamArrival .. | .txFrameAdvance _ | .playoutAdvance _ | .holdOffDeadline _ | .answerDeadline _
  | .refreshLapse _ | .rechallengeDeadline _ | .lineIdle _ | .lineCellDiscarded .. | .managementIdle
  | .waitingCodeSent .. => false

end Sys2Proof.Machine
end

