-- ==== Sys2Proof/Certificates/Slice0/Obligations.lean ====
section
/-! DEFINITION. The statements for the provers. Each docstring names the rules of the manual a statement formalises;
where a clause is the model's own choice it names the entry of the assumption log. -/

section Statements

open Sys2Proof Sys2Proof.Machine

/-! ### The queue of commands -/

/-- The model's own rule of the queue (assumption 1): the command at the front is taken and its effect made on the state
with the rest of the queue; an empty queue idles. -/
def Obligations.StepRunsFrontCommand : Prop :=
  (∀ (c : Instr) (rest : List Instr) (s : State), s.pending = c :: rest → step s = exec c { s with pending := rest }) ∧
    ∀ s : State, s.pending = [] → step s = .next s

/-- Nothing in the manual stops the part: every command, in every state and with every operand, answers a next state,
and leaves the queue of commands alone (assumption 13). -/
def Obligations.EveryCommandCompletes : Prop :=
  ∀ (c : Instr) (s : State), ∃ t, exec c s = .next t ∧ t.pending = s.pending

/-! ### Reset, the frame pulse and its loss (R2, R7 to R9, R13, R14, R34) -/

/-- A hardware reset completes from every state, and it leaves every field at its reset value: R14 with the values of R8,
R9, R33, R34, R53, R65, R73, R74, R93, R115, R155, R157, R166, R168, R171 and R173, and no frame in progress, with nothing
owed by a boundary. That the queue of commands and the counter of free bytes are kept is the model's own
(assumptions 8 and 9), as are the marks of slots and arrivals (assumption 18). -/
def Obligations.HardwareResetClearsEverything : Prop :=
  ∀ s : State, ∃ t, exec .hardwareReset s = .next t ∧ t.pending = s.pending ∧ t.freeCount = s.freeCount ∧
    t.frameCount = 0 ∧ t.framePrescale = 0 ∧ t.secondCount = 0 ∧ t.pulse = .awaiting ∧
    t.boundary =
      { cutShort := false, secondDue := false, takeDue := false, reportDue := false, lineDue := [], playoutDue := []
        txDue := [], suppliedUp := [], suppliedDown := [] } ∧
    (∀ p, t.position p =
      { requested := .clear, toneChannel := 0, upGain := 256, downGain := 256, owner := none, pending := none
        context := none, attempts := 0, holdOff := none, upClamps := 0, downClamps := 0, hold := 255
        switchWaiting := 255, lineWaiting := 255, switchSending := 255, lineSending := 255, upTaken := false
        downTaken := false, switchDriven := false, lineDriven := false }) ∧
    (∀ e, t.entry e =
      { state := .unloaded, identity := 0, group := 0, secret := none, home := none, candidate := none
        refresh := none, rechallenge := none, failures := 0, context := none }) ∧
    (∀ g, t.group g = { budget := 256, inUse := 0, refresh := 300, rechallenge := 0, failureLimit := 3 }) ∧
    (∀ j, t.context j =
      { call := none, loop := false, txGeneration := 0, txFrame := 0, skipReported := false, rxGeneration := 0
        rxFrame := 0, sync := .hunt, misses := 0, slips := 0, window := [], staged := none }) ∧
    (∀ c, t.channel c =
      { start := 0, length := 1, position := 0, repeats := .endless, mode := .advance, status := .stopped }) ∧
    (∀ h, t.highway h = { queue := [], drops := 0, sending := .idle }) ∧ (∀ a, t.pattern.read a = 255) ∧
    t.verifyQueue = [] ∧ t.verifyPause = false ∧ t.inFlight = [] ∧ t.completing = [] ∧ t.reserved = [] ∧
    t.pairBuffer = none ∧ t.reportQueue = [⟨0, .started⟩] ∧ t.reportPause = false ∧ t.lostReports = 0 ∧
    t.reportSending = .idle ∧
    t.settings =
      { syncSpan := 1024, rekeyMultiple := 0, missLimit := 3, answerWindow := 16000, baseHoldOff := 64
        challengeTone := none, securingTone := none, keyMissTone := none
        levels := #v[0, 1, 1, 1, 2, 2, 2, 3, 3, 3, 3, 4, 4, 5, 5, 5, 6, 6, 6, 6] } ∧
    t.wf = s.pending.all Instr.wellFormed

/-- The first frame pulse after a hardware reset begins a frame, takes one outbound cell for each channel and advances no
count (R2, R7); that frame sends STARTED in the Control Channel and 255 in every speech slot (R4, R14). -/
def Obligations.FirstPulseBeginsFrame : Prop :=
  (∀ s : State, s.wf = true → s.pulse = .awaiting →
    ∃ t, exec .firstFramePulse s = .next t ∧ (∀ h, t.highway h = if h < 4 then (s.highway h).sent else s.highway h) ∧
      TakesReport s t ∧
      t =
        { s with
          pulse := .running, highways := t.highways, reportQueue := t.reportQueue, reportPause := t.reportPause
          reportSending := t.reportSending }) ∧
    ∀ s t : State, exec .hardwareReset s = .next t →
      ∃ u, exec .firstFramePulse t = .next u ∧ u.frameCount = 0 ∧ u.reportSending = .started ∧ u.reportQueue = [] ∧
        ∀ side highway slot, slot < 120 → u.driven side highway slot = 255

/-- While the frame pulse is absent nothing arrives, no deadline is reached, no count moves and no cell leaves: no
command but a hardware reset or a frame pulse changes anything, and every outbound slot carries 255 (R13; that such a
command is discarded is assumption 4). -/
def Obligations.AbsentPulseFreezesThePart : Prop :=
  (∀ (loss : PulseLoss) (s : State), s.pulse = .running →
    exec (.framePulseAbsent loss) s = .next { s with pulse := .absent loss }) ∧
    (∀ (loss : PulseLoss) (s : State) (c : Instr), s.pulse = .absent loss → c ≠ .hardwareReset →
      c ≠ .firstFramePulse → (∀ cut, c ≠ .frameBoundary cut) → exec c s = .next s) ∧
    ∀ (loss : PulseLoss) (s : State) (side : Side) (highway slot : Nat), s.pulse = .absent loss →
      s.driven side highway slot = 255

/-- A frame pulse other than the first is one frame boundary, however long the pulse was absent and whatever the boundary
before it has left to be done: the Frame Count advances by one, wrapping, and a frame is in progress (R2, R8, R13). The
Settings, Pattern Memory, the Pair Buffer and the commands that wait are as they were (a pulse is classified by the
state: assumption 3).

A frame boundary once the events of the one before have been taken. Slots not driven in a whole frame count as driven
with their codes, and in a frame cut short their codes give way to 255 (R34); the frames' events are laid down
(assumption 2); two outputs are reserved for each OPEN context (R27); the items in flight are to complete (R30); and an
arrival that a cut-short frame still lacks is supplied (R2). That an undriven slot of a whole frame counts as driven is
assumption 18; that the Frame Prescale waits at 7999 for the advance of the Second Count, a command of its own, which
returns it to 0, is assumption 5 (R9 gives the two as one event).

A boundary first makes what the boundary before it still has to bring about, so that it finds nothing due and no deadline
at its count. What it makes is the effect of each event that is still owed, by the event's own command: as long as the
state is not quiet some event is next in the order of the leftovers, taking it by its command changes nothing of what they
lead to in the end, and a quiet state is that end. The order of these leftovers is the model's choice (assumption 2). -/
def Obligations.BoundaryEndsAndBeginsFrame : Prop :=
  (∀ (cut : Bool) (s : State), s.pulse ≠ .awaiting →
    ∃ t, exec (.frameBoundary cut) s = .next t ∧ t.frameCount = s.frameCount + 1 ∧ t.pulse = .running ∧
      t.settings = s.settings ∧ t.pattern = s.pattern ∧ t.pairBuffer = s.pairBuffer ∧ t.freeCount = s.freeCount ∧
      t.pending = s.pending) ∧
  (∀ (early : Bool) (s : State), s.wf = true → s.quiet → s.pulse ≠ .awaiting →
    ∃ t cut, exec (.frameBoundary early) s = .next t ∧
      (s.pulse = .running → cut = early) ∧ (s.pulse = .absent .afterFrame → cut = false) ∧
      (s.pulse = .absent .withinFrame → cut = true) ∧
      t.frameCount = s.frameCount + 1 ∧
      t.framePrescale = (if s.framePrescale = 7999 then 7999 else s.framePrescale + 1) ∧
      t.boundary.cutShort = cut ∧ t.boundary.secondDue = decide (s.framePrescale = 7999) ∧
      t.boundary.takeDue = true ∧ t.boundary.reportDue = true ∧
      t.boundary.lineDue = [0, 1, 2, 3] ∧ t.boundary.playoutDue.Nodup ∧
      (∀ c, c ∈ t.boundary.playoutDue ↔ (s.channel c).status = .running) ∧
      (∀ j, j ∈ t.boundary.txDue ↔ (s.context j).call ≠ none) ∧ t.reserved = t.boundary.txDue ∧
      t.reserved.Nodup ∧
      (∀ p, p ∈ t.boundary.suppliedUp ↔ cut = true ∧ p < 480 ∧ (s.position p).upTaken = false) ∧
      (∀ p, p ∈ t.boundary.suppliedDown ↔ cut = true ∧ p < 480 ∧ (s.position p).downTaken = false) ∧
      t.boundary.suppliedUp.Nodup ∧ t.boundary.suppliedDown.Nodup ∧
      t.completing = s.inFlight ∧ t.inFlight = [] ∧
      (∀ p, t.position p =
        { s.position p with
          switchSending :=
            if (s.position p).switchDriven = true ∨ cut = true then (s.position p).switchSending
            else (s.position p).switchWaiting
          switchWaiting := if (s.position p).switchDriven then (s.position p).switchWaiting else 255
          lineSending :=
            if (s.position p).lineDriven = true ∨ cut = true then (s.position p).lineSending
            else (s.position p).lineWaiting
          lineWaiting := if (s.position p).lineDriven then (s.position p).lineWaiting else 255
          upTaken := false, downTaken := false, switchDriven := false, lineDriven := false }) ∧
      t =
        { s with
          frameCount := t.frameCount, framePrescale := t.framePrescale, pulse := .running, boundary := t.boundary
          positions := t.positions, reserved := t.reserved, completing := t.completing, inFlight := t.inFlight }) ∧
  (∀ (cut : Bool) (s : State), s.wf = true → s.agrees → s.pulse ≠ .awaiting →
    s.finishBoundary.quiet ∧ exec (.frameBoundary cut) s = exec (.frameBoundary cut) s.finishBoundary) ∧
  (∀ (c : Instr) (s : State), s.wf = true → s.agrees → s.pulsed → s.nextDue c →
    ∃ u, exec c s = .next u ∧ u.finishBoundary = s.finishBoundary) ∧
  (∀ s : State, s.wf = true → s.quiet ∨ ∃ c, s.nextDue c) ∧ ∀ s : State, s.quiet → s.finishBoundary = s

/-- The Second Count advances, wrapping, and the Frame Prescale returns to 0, once at the boundary that brings the
prescale to 8000 (R9).

One second is 8000 frame boundaries: at prescale `n` the next boundary brings it to `n + 1`, or at the 8000th back to
0 with one advance of the Second Count, which wraps beyond 65535 (R9; the advance is a command of its own, made once:
assumptions 2 and 5). -/
def Obligations.SecondCountsEightThousandFrames : Prop :=
  (∀ s : State, s.pulsed →
    (s.boundary.secondDue = true →
      exec .secondCountAdvance s =
        .next
          { s with
            framePrescale := 0, secondCount := s.secondCount + 1
            boundary := { s.boundary with secondDue := false } }) ∧
    (s.boundary.secondDue = false → exec .secondCountAdvance s = .next s)) ∧
  (∀ (n : Nat) (s : State), n < 8000 → s.wf = true → s.framePrescale = n → s.quiet → s.pulse = .running →
    ∃ t u, exec (.frameBoundary false) s = .next t ∧ exec .secondCountAdvance t = .next u ∧
      u.secondCount.toNat = (s.secondCount.toNat + (n + 1) / 8000) % 65536 ∧ u.framePrescale = (n + 1) % 8000 ∧
      (t.boundary.secondDue = true ↔ n + 1 = 8000))

/-- A waiting code counts as sent when the first bit of its slot is driven: it stands in the slot, 255 takes its place in
the record, and this happens once in a frame (R34; assumption 18).

An arrival that a cut-short frame does not owe changes nothing when it is supplied, and one that it owes comes before
the carried arrivals of the new frame, and before its slot is driven: taking it first changes no outcome (R2, R34; the
order is assumption 5).

A cell of a frame comes after all that the boundary of its beginning brings about: it acts as on the state in which every
event of that boundary has been made, nothing is due and no deadline stands at its count (R7, R10 to R12, R28, R77, R130,
R160; assumption 2). -/
def Obligations.SlotsSendAndArrivalsAreSupplied : Prop :=
  (∀ (p : Fin 480) (s : State), s.pulsed → p.val ∉ s.boundary.suppliedUp → p.val ∉ s.boundary.suppliedDown →
    exec (.waitingCodeSent p .switch) s =
        .next
          (s.setPosition p.val
            (if (s.position p.val).switchDriven then s.position p.val
             else
              { s.position p.val with
                switchSending := (s.position p.val).switchWaiting, switchWaiting := 255, switchDriven := true })) ∧
      exec (.waitingCodeSent p .line) s =
        .next
          (s.setPosition p.val
            (if (s.position p.val).lineDriven then s.position p.val
             else
              { s.position p.val with
                lineSending := (s.position p.val).lineWaiting, lineWaiting := 255, lineDriven := true }))) ∧
  (∀ (p : Fin 480) (s : State), s.pulsed → s.boundary.suppliedUp.Nodup → s.boundary.suppliedDown.Nodup →
    (p.val ∉ s.boundary.suppliedUp → exec (.upstreamArrival p .supplied) s = .next s) ∧
    (p.val ∉ s.boundary.suppliedDown → exec (.downstreamArrival p .supplied) s = .next s) ∧
    (∀ code u, exec (.upstreamArrival p .supplied) s = .next u →
      exec (.upstreamArrival p (.carried code)) s = exec (.upstreamArrival p (.carried code)) u ∧
        exec (.downstreamArrival p (.carried code)) s = exec (.downstreamArrival p (.carried code)) u) ∧
    ∀ code u, p.val ∉ s.boundary.suppliedUp → exec (.downstreamArrival p .supplied) s = .next u →
      exec (.upstreamArrival p (.carried code)) s = exec (.upstreamArrival p (.carried code)) u ∧
        exec (.downstreamArrival p (.carried code)) s = exec (.downstreamArrival p (.carried code)) u) ∧
  (∀ (p : Fin 480) (side : Side) (s u : State), s.pulsed → s.boundary.suppliedUp.Nodup →
    s.boundary.suppliedDown.Nodup →
      (exec (.upstreamArrival p .supplied) s = .next u ∨ exec (.downstreamArrival p .supplied) s = .next u) →
        exec (.waitingCodeSent p side) s = exec (.waitingCodeSent p side) u) ∧
  (∀ (c : Instr) (s : State), isCell c = true → s.wf = true → s.agrees → s.pulsed →
    exec c s = exec c s.finishBoundary ∧ s.finishBoundary.inFrame)

/-! ### Outbound cells (R7, R72, R73, R171 to R173) -/

/-- At a boundary the oldest cell of a Line Reply Queue leaves, or an idle cell is made; a cell whose frame was cut short
is sent again and none leaves; once at each boundary (R7; assumptions 2 and 17).

At a boundary the Report Queue's selection leaves, the oldest cell of the lowest level number present, and the Report
Pause clears when 16 cells are left; or an idle cell is made, or the cell of a cut-short frame is sent again
(R7, R172, R173).

In a frame in progress a driven speech slot carries the code that waited for it, slots 120 to 127 of each Lh and of S0
carry the eight bytes of the outbound cell, and those of S1 to S3 carry 255 (R4, R7). Each outbound line cell and
management cell has the bytes of its layout, most significant byte first, with 0 in the bytes that the layout does not use
(R165, R171, R174 to R176). -/
def Obligations.OutboundCellsLeaveAtBoundary : Prop :=
  (∀ (h : Fin 4) (s : State), s.pulsed →
    (h.val ∈ s.boundary.lineDue →
      exec (.lineReplySend h) s =
        .next
          (({ s with boundary := { s.boundary with lineDue := s.boundary.lineDue.erase h.val } } : State).setHighway
            h.val
            (if s.boundary.cutShort = true ∧ (s.highway h.val).sending ≠ .idle then s.highway h.val
             else (s.highway h.val).sent))) ∧
    (h.val ∉ s.boundary.lineDue → exec (.lineReplySend h) s = .next s)) ∧
  (∀ s : State, s.wf = true → s.pulsed →
    (s.boundary.reportDue = true →
      ∃ t, exec .reportSend s = .next t ∧
        (if s.boundary.cutShort = true ∧ s.reportSending ≠ .idle then
          t.reportQueue = s.reportQueue ∧ t.reportSending = s.reportSending ∧ t.reportPause = s.reportPause
         else TakesReport s t) ∧
        t =
          { s with
            boundary := { s.boundary with reportDue := false }
            reportQueue := t.reportQueue, reportSending := t.reportSending, reportPause := t.reportPause }) ∧
    (s.boundary.reportDue = false → exec .reportSend s = .next s)) ∧
  (∀ s : State, s.pulse = .running →
    (∀ h slot, slot < 120 → s.driven .line h slot = (s.position (120 * h + slot)).lineSending ∧
      s.driven .switch h slot = (s.position (120 * h + slot)).switchSending) ∧
    (∀ h k, k < 8 → (s.highway h).sending.bytes[k]? = some (s.driven .line h (120 + k)) ∧
      s.reportSending.bytes[k]? = some (s.driven .switch 0 (120 + k))) ∧
    ∀ h slot, h ≠ 0 → 120 ≤ slot → s.driven .switch h slot = 255) ∧
  ((∀ n, n < 256 → (field1 n).map BitVec.toNat = [n]) ∧
    (∀ n, n < 65536 → (field2 n).map BitVec.toNat = [n / 256, n % 256]) ∧
    (∀ n, n < 16777216 → (field3 n).map BitVec.toNat = [n / 65536, n / 256 % 256, n % 256]) ∧
    ∀ n, n < 4294967296 →
      (field4 n).map BitVec.toNat = [n / 16777216, n / 65536 % 256, n / 256 % 256, n % 256]) ∧
  (LineCell.idle.bytes = [0, 0, 0, 0, 0, 0, 0, 0] ∧
    ∀ slot, (∀ n, (LineCell.reply slot (.challenge n)).bytes = [1] ++ field1 slot ++ field3 n.toNat ++ [0, 0, 0]) ∧
      (∀ n, (LineCell.reply slot (.welcome n)).bytes = [2] ++ field1 slot ++ field2 n ++ [0, 0, 0, 0]) ∧
      (∀ n, (LineCell.reply slot (.wait n)).bytes = [3] ++ field1 slot ++ field3 n ++ [0, 0, 0]) ∧
      (∀ reason code n, (reason, code) ∈
          [(RejectReason.busy, (1 : Byte)), (.unknown, 2), (.barred, 3), (.notReady, 4), (.noChallenge, 5),
            (.timeout, 6), (.failed, 7), (.notSignedOn, 8)] →
        (LineCell.reply slot (.reject reason n)).bytes = [4] ++ field1 slot ++ [code] ++ field3 n ++ [0, 0]) ∧
      ∀ cause code, (cause, code) ∈
          [(LineLapseCause.signedOff, (1 : Byte)), (.moved, 2), (.timeout, 3), (.forced, 4)] →
        (LineCell.reply slot (.lapsed cause)).bytes = [5] ++ field1 slot ++ [code] ++ [0, 0, 0, 0, 0]) ∧
  (OutCell.idle.bytes = [0, 0, 0, 0, 0, 0, 0, 0] ∧ OutCell.started.bytes = [16, 0, 0, 0, 0, 0, 0, 0] ∧
    ∀ tag : Byte,
      (∀ b2 b3 b4 b5 b6 b7, (OutCell.answer tag [b2, b3, b4, b5, b6, b7]).bytes = [3, tag, b2, b3, b4, b5, b6, b7]) ∧
      (∀ kind reason code, (reason, code) ∈
          [(Reason.unknownKind, (1 : Byte)), (.badIndex, 2), (.badValue, 3), (.inUse, 4), (.duplicate, 5),
            (.notLoaded, 6), (.notBarred, 7), (.notAdmitted, 8), (.groupFull, 9), (.noKey, 10), (.stagedBusy, 11),
            (.looped, 12), (.inCall, 13), (.positionBusy, 14)] →
        (OutCell.refused tag kind reason).bytes = [2, tag] ++ field1 kind ++ [code, 0, 0, 0, 0]) ∧
      (∀ command code e, (command, code) ∈
          [(EntryCommand.loadExtension, (1 : Byte)), (.unloadExtension, 2), (.forceSignOff, 4), (.bar, 5),
            (.unbar, 6)] →
        (OutCell.accepted tag (.entryCommand command e)).bytes = [1, tag, code] ++ field2 e ++ [0, 0, 0]) ∧
      (∀ half h complete f i, (half, h) ∈ [(Half.low, (0 : Byte)), (.high, 1)] →
        (complete, f) ∈ [(false, (0 : Byte)), (true, 1)] →
          (OutCell.accepted tag (.secretHalf i half complete)).bytes = [1, tag, 3] ++ field2 i ++ [h, f, 0] ∧
            (OutCell.accepted tag (.stagedHalf i half complete)).bytes = [1, tag, 9] ++ field1 i ++ [h, f, 0, 0]) ∧
      (∀ g a b, (OutCell.accepted tag (.setGroupLimits g a b)).bytes =
          [1, tag, 7] ++ field1 g ++ field2 a ++ field1 b ++ [0] ∧
        (OutCell.accepted tag (.setGroupTimes g a b)).bytes = [1, tag, 8] ++ field1 g ++ field2 a ++ field2 b) ∧
      (∀ j p e, (OutCell.accepted tag (.openCall j p e)).bytes = [1, tag, 10] ++ field1 j ++ field2 p ++ field2 e) ∧
      (∀ wasOpen f j, (wasOpen, f) ∈ [(false, (0 : Byte)), (true, 1)] →
        (OutCell.accepted tag (.closeCall j wasOpen)).bytes = [1, tag, 11] ++ field1 j ++ [f, 0, 0, 0]) ∧
      (∀ p, (OutCell.accepted tag (.setPositionTreatment p)).bytes = [1, tag, 12] ++ field2 p ++ [0, 0, 0]) ∧
      (∀ direction code p gain, (direction, code) ∈ [(Direction.up, (1 : Byte)), (.down, 2), (.both, 3)] →
        (OutCell.accepted tag (.setPositionGain p direction gain)).bytes =
          [1, tag, 13] ++ field2 p ++ [code] ++ field2 gain) ∧
      (∀ a, (OutCell.accepted tag (.loadPattern a)).bytes = [1, tag, 14] ++ field2 a ++ [0, 0, 0]) ∧
      (∀ c n, (OutCell.accepted tag (.setPlayout c n)).bytes = [1, tag, 15] ++ field1 c ++ field2 n ++ [0, 0]) ∧
      (∀ before code c, (before, code) ∈ [(PlayoutStatus.stopped, (0 : Byte)), (.running, 1), (.countDone, 2)] →
        (OutCell.accepted tag (.stopPlayout c before)).bytes = [1, tag, 16] ++ field1 c ++ [code, 0, 0, 0]) ∧
      (∀ n v, (OutCell.accepted tag (.setDevice n v)).bytes = [1, tag, 17] ++ field1 n ++ field2 v ++ [0, 0]) ∧
      ∀ scope code, (scope, code) ∈ [(Scope.calls, (1 : Byte)), (.all, 2)] →
        (OutCell.accepted tag (.restart scope)).bytes = [1, tag, 19, code, 0, 0, 0, 0]) ∧
  ((∀ scope code n, (scope, code) ∈ [(Scope.calls, (1 : Byte)), (.all, 2)] →
      (OutCell.report (.restarted scope n)).bytes = [17, code] ++ field2 n ++ [0, 0, 0, 0]) ∧
    (∀ j p n, (OutCell.report (.syncLost j p n)).bytes = [18] ++ field1 j ++ field2 p ++ field1 n ++ [0, 0, 0]) ∧
    (∀ cause code j p (g h : Generation), (cause, code) ∈ [(KeyMissCause.noKey, (1 : Byte)), (.skipped, 2)] →
      (OutCell.report (.keyMiss j p cause g h)).bytes =
        [19] ++ field1 j ++ field2 p ++ [code] ++ field1 g.toNat ++ field1 h.toNat ++ [0]) ∧
    (∀ half code i, (half, code) ∈ [(Half.low, (0 : Byte)), (.high, 1)] →
      (OutCell.report (.pairBroken (.secret i) half)).bytes = [20, 1] ++ field2 i ++ [code, 0, 0, 0] ∧
        (OutCell.report (.pairBroken (.stagedKey i) half)).bytes = [20, 2] ++ field2 i ++ [code, 0, 0, 0]) ∧
    (∀ e p n, (OutCell.report (.barred e p n)).bytes = [21] ++ field2 e ++ field2 p ++ field1 n ++ [0, 0]) ∧
    (∀ cause code j p e, (cause, code) ∈
        [(CloseCause.requested, (1 : Byte)), (.signedOff, 2), (.lapsed, 3), (.renewTimeout, 4), (.renewFailed, 5),
          (.displaced, 6), (.moved, 7), (.barred, 8), (.unloaded, 9)] →
      (OutCell.report (.callClosed j p e cause)).bytes =
        [22] ++ field1 j ++ field2 p ++ field2 e ++ [code, 0]) ∧
    (∀ j p (g : Generation), (OutCell.report (.stagedTaken j p g)).bytes =
      [23] ++ field1 j ++ field2 p ++ field1 g.toNat ++ [0, 0, 0]) ∧
    (∀ cause code e p, (cause, code) ∈ [(ReportLapseCause.timeout, (1 : Byte)), (.renewTimeout, 2)] →
      (OutCell.report (.lapsed e p cause)).bytes = [24] ++ field2 e ++ field2 p ++ [code, 0, 0]) ∧
    (∀ a b c, (OutCell.report (.displaced a b c)).bytes = [25] ++ field2 a ++ field2 b ++ field2 c ++ [0] ∧
      (OutCell.report (.moved a b c)).bytes = [26] ++ field2 a ++ field2 b ++ field2 c ++ [0]) ∧
    (∀ kind reason result k r x e p, (kind, k) ∈ [(CandidateKind.first, (1 : Byte)), (.move, 2), (.renew, 3)] →
      (reason, r) ∈ [(RejectedReason.failed, (1 : Byte)), (.notReady, 2)] →
        (result, x) ∈ [(RejectedResult.noChange, (0 : Byte)), (.admissionEnded, 1), (.nowBarred, 2)] →
          (OutCell.report (.rejected e p kind reason result)).bytes = [27] ++ field2 e ++ field2 p ++ [k, r, x]) ∧
    (∀ renew f e p, (renew, f) ∈ [(false, (0 : Byte)), (true, 1)] →
      (OutCell.report (.admitted e p renew)).bytes = [28] ++ field2 e ++ field2 p ++ [f, 0, 0]) ∧
    (∀ e p, (OutCell.report (.signedOff e p)).bytes = [29] ++ field2 e ++ field2 p ++ [0, 0, 0]) ∧
    (∀ i p, (OutCell.report (.unknownIdentity i p)).bytes = [30] ++ field4 i ++ field2 p ++ [0]) ∧
    (∀ j (a b : FrameNumber) n, (OutCell.report (.slip j a b n)).bytes =
      [31] ++ field1 j ++ field3 a.toNat ++ field2 (b.toNat / 256) ++ field1 n) ∧
    (∀ reason code j p (g : Generation) (n : FrameNumber), (reason, code) ∈
        [(SkipReason.noKey, (1 : Byte)), (.notReceived, 2)] →
      (OutCell.report (.txRekeySkipped j p g n reason)).bytes =
        [32] ++ field1 j ++ field2 p ++ field1 g.toNat ++ field2 (n.toNat / 256) ++ [code]) ∧
    (∀ j p (g : Generation) (n : FrameNumber),
      (OutCell.report (.syncAligned j p n g)).bytes =
          [33] ++ field1 j ++ field2 p ++ field3 n.toNat ++ field1 g.toNat ∧
        (OutCell.report (.txRekeyed j p g n)).bytes =
          [34] ++ field1 j ++ field2 p ++ field1 g.toNat ++ field3 n.toNat ∧
        (OutCell.report (.rxRekeyed j p g n)).bytes =
          [35] ++ field1 j ++ field2 p ++ field1 g.toNat ++ field3 n.toNat) ∧
    ∀ c a n, (OutCell.report (.playoutDone c a n)).bytes = [36] ++ field1 c ++ field2 a ++ field2 n ++ [0, 0])

/-- A reply joins the queue of its position's highway while fewer than 16 cells wait; at 16 it is dropped and the Drop
Count advances, staying at 65535 (R72, R73).

A cell joins the Report Queue while fewer than 64 wait. At 64, the newest cell of the greatest level number present
gives way if that number is greater than the cell's own, and the cell is lost otherwise; either counts in Lost Reports,
and the Report Pause is set when a join leaves 48 (R172, R173). A report joins at its kind's level and, at level 7,
does not join (R171). -/
def Obligations.QueuesTakeOrDropCells : Prop :=
  (∀ (s : State) (h slot : Nat) (r : LineReply), slot < 120 →
    ((s.highway h).queue.length < 16 →
      ((s.replyTo (120 * h + slot) r).highway h).queue = (s.highway h).queue ++ [.reply slot r] ∧
        ((s.replyTo (120 * h + slot) r).highway h).drops = (s.highway h).drops) ∧
    (16 ≤ (s.highway h).queue.length →
      ((s.replyTo (120 * h + slot) r).highway h).queue = (s.highway h).queue ∧
        ((s.replyTo (120 * h + slot) r).highway h).drops = min 65535 ((s.highway h).drops + 1)) ∧
    ((s.replyTo (120 * h + slot) r).highway h).sending = (s.highway h).sending ∧
    (∀ k, k ≠ h → (s.replyTo (120 * h + slot) r).highway k = s.highway k) ∧
    s.replyTo (120 * h + slot) r = { s with highways := (s.replyTo (120 * h + slot) r).highways }) ∧
  ((∀ (s : State) (level : Nat) (cell : OutCell),
    (s.reportQueue.length < 64 →
      s.joinCell level cell =
        { s with
          reportQueue := s.reportQueue ++ [⟨level, cell⟩]
          reportPause := if s.reportQueue.length = 47 then true else s.reportPause }) ∧
    (64 ≤ s.reportQueue.length → (∃ d ∈ s.reportQueue, level < d.level) →
      ∃ before d after, s.reportQueue = before ++ d :: after ∧ (∀ x ∈ s.reportQueue, x.level ≤ d.level) ∧
        (∀ x ∈ after, x.level < d.level) ∧
        s.joinCell level cell =
          { s with
            reportQueue := before ++ after ++ [⟨level, cell⟩], lostReports := min 65535 (s.lostReports + 1) }) ∧
    (64 ≤ s.reportQueue.length → (∀ d ∈ s.reportQueue, d.level ≤ level) →
      s.joinCell level cell = { s with lostReports := min 65535 (s.lostReports + 1) })) ∧
  ∀ (s : State) (r : Report),
    (s.settings.levels[r.kind.place] < 7 →
      s.report r = s.joinCell s.settings.levels[r.kind.place] (.report r)) ∧
    (7 ≤ s.settings.levels[r.kind.place] → s.report r = s))

/-! ### Sample arithmetic, keystream and bursts (R15 to R24, R131, R136 to R138, R143 to R145) -/

/-- Decoding and encoding give a code back, 127 becoming 255; the sign of every nonzero magnitude is kept, and magnitude 0
is encoded as positive (R17).

The encoder: a magnitude in the interval of step `step` of chord `chord` gives that step's code with its sign, values
beyond 8031 are clamped, and every magnitude up to 8031 lies in one of the intervals (R16).

The decoder: the code of magnitude index `q` has the magnitude that R15 gives from its chord and step, positive for the
codes from 128 and negative for those below. -/
def Obligations.CodesEncodeAndDecode : Prop :=
  ((∀ c : Byte, encodeLinear (linearValue c) = if c = 127 then 255 else c) ∧
    (∀ c : Byte, (linearValue c).natAbs ≤ 8031 ∧ (linearValue c = 0 ↔ c = 127 ∨ c = 255) ∧
      (linearValue c ≠ 0 → (0 < linearValue c ↔ 128 ≤ c.toNat))) ∧
    (∀ (c : Byte) (gain : Nat), gain ≠ 256 → linearValue c = 0 → gainCode gain c = 255) ∧ gainCode 256 127 = 127) ∧
  ((∀ chord step m : Nat, chord < 8 → step < 16 → (16 + step) * 2 ^ (chord + 1) ≤ m + 33 →
    m + 33 < (17 + step) * 2 ^ (chord + 1) → m ≤ 8031 →
      (encodeLinear (m : Int)).toNat = 255 - (16 * chord + step) ∧
        (0 < m → (encodeLinear (-(m : Int))).toNat = 127 - (16 * chord + step))) ∧
    (∀ l : Int, 8031 < l → encodeLinear l = encodeLinear 8031) ∧
    (∀ l : Int, l < -8031 → encodeLinear l = encodeLinear (-8031)) ∧
    (∀ m : Nat, m ≤ 8031 → ∃ chord step, chord < 8 ∧ step < 16 ∧ (16 + step) * 2 ^ (chord + 1) ≤ m + 33 ∧
      m + 33 < (17 + step) * 2 ^ (chord + 1)) ∧
    ∀ l : Int, encodeLinear l ≠ 127) ∧
  ∀ q magnitude : Nat, q < 128 → magnitude + 33 = (2 * (q % 16) + 33) * 2 ^ (q / 16) →
    linearValue (BitVec.ofNat 8 (255 - q)) = (magnitude : Int) ∧
      linearValue (BitVec.ofNat 8 (127 - q)) = -(magnitude : Int)

/-- Away from unity the gain stage scales the linear value by `gain / 256`, rounds to the nearest with an exact half away
from zero, and gives 255 at gain 0 and for code 127 (R19). -/
def Obligations.GainRoundsToNearest : Prop :=
  ∀ (gain : Nat) (c : Byte), gain ≤ 512 → gain ≠ 256 →
    (linearValue c * gain).natAbs ≤ 4111872 ∧
      ∃ l : Int, l.natAbs = ((linearValue c * gain).natAbs + 128) / 256 ∧ (0 < linearValue c * gain → 0 ≤ l) ∧
        (linearValue c * gain < 0 → l ≤ 0) ∧ (linearValue c * gain = 0 → l = 0) ∧ l.natAbs ≤ 16062 ∧
        scaled (linearValue c) gain = l ∧
        (gainClamps gain c = true ↔ 8031 < l.natAbs) ∧
        gainCode gain c = encodeLinear (if 8031 < l then 8031 else if l < -8031 then -8031 else l) ∧
        (gain = 0 → gainCode gain c = 255) ∧ (c = 127 → gainCode gain c = 255) ∧ (gain < 256 → gainClamps gain c = false)

/-- A scrambled code is restored by the same key and frame number: what the transmit side of one context sends outside a
burst, released unmarked by an aligned receive side that numbers it as it was sent, is the clear code through the down
gain, which becomes the hold sample (R23, R24, R48, R138, R144).

The words of a key: two values of k1 that give the same multiplier, and two values of k0 that leave the same
remainder, give the same keystream (R22). -/
def Obligations.ScramblingIsUndone : Prop :=
  (∀ (span : Nat) (c d : Context) (sent received : Call) (clear : Byte) (s : State) (p : Nat),
    8 ≤ c.txFrame.toNat % span → sent.txKey = received.rxKey → d.rxFrame + 1 - 8 = c.txFrame →
      d.sync = .aligned ∨ d.sync = .freewheel →
        transmitCode span c sent clear = clear + keystream sent.txKey c.txFrame ∧
          s.releaseCode p d received ⟨transmitCode span c sent clear, false⟩ =
            ⟨gainCode (s.position p).downGain clear, gainCode (s.position p).downGain clear,
              gainClamps (s.position p).downGain clear⟩) ∧
  ((∀ (k0 k2 k3 : KeyWord) (n : FrameNumber), keystream ⟨k0, 0, k2, k3⟩ n = keystream ⟨k0, 65520, k2, k3⟩ n) ∧
    (∀ (k0 k1 k2 k3 : KeyWord) (n : FrameNumber), 65521 ≤ k0.toNat →
      keystream ⟨k0, k1, k2, k3⟩ n = keystream ⟨k0 - 65521, k1, k2, k3⟩ n) ∧
    ∀ (k : Key) (n : FrameNumber) (v w : Nat),
      v = (n.toNat % 65521 + k.k0.toNat) % 65521 * (k.k1.toNat % 65520 + 1) % 65521 →
        w = (v + k.k2.toNat + n.toNat / 65521 * k.k3.toNat) % 65536 →
          (keystream k n).toNat = (w % 256 + w / 256) % 256)

/-- The eight bytes of a sync burst are sent in the frames whose number is 0 to 7 beyond a multiple of the Sync Span,
whatever the clear input, and eight received codes hold a valid burst exactly when they are those bytes for a multiple of
the Sync Span and none is marked (R136, R137, R145).

The bytes: two markers, the frame number in three bytes with the most significant first, the generation, the third marker,
and the sum of these seven (R137). -/
def Obligations.BurstFoundExactlyWhenSent : Prop :=
  (∀ (n0 : FrameNumber) (g : Generation) (a b c : Nat), a = n0.toNat / 65536 → b = n0.toNat / 256 % 256 →
    c = n0.toNat % 256 →
      (burstBytes n0 g).map BitVec.toNat =
        [27, 228, a, b, c, g.toNat, 165, (27 + 228 + a + b + c + g.toNat + 165) % 256]) ∧
  ∀ span : Nat, isSyncSpan span = true →
    (∀ (window : List WindowCode) (b : FoundBurst),
      findBurst span window = some b ↔
        window.map WindowCode.code = burstBytes b.n0 b.generation ∧ (∀ w ∈ window, w.isBurst = false) ∧
          b.n0.toNat % span = 0) ∧
    ∀ (c : Context) (call : Call) (clear : Byte) (n0 : FrameNumber) (k : Nat), k < 8 → n0.toNat % span = 0 →
      c.txFrame = n0 + BitVec.ofNat 24 k →
        (burstBytes n0 c.txGeneration)[k]? = some (transmitCode span c call clear)

/-! ### Verification (R25, R26, R28 to R30, R96 to R105) -/

/-- The outcome of a verification: NOT READY without a secret; MATCH exactly when the four bytes are the keystream at the
challenge and the three numbers after it, wrapping, in order; MISMATCH otherwise (R25, R26).

At a boundary the Mixing Unit takes items from the head of the queue, as many as the outputs left by its reservation
allow, each with its outcome against the secret as it stands, and the Verification Pause clears at 8 or fewer; once at
each boundary (R28, R29, R94; assumptions 2 and 6). -/
def Obligations.MixingUnitVerifies : Prop :=
  ((∀ item : VerifyItem, verdictOf none item = .notReady) ∧
    ∀ (secret : Key) (item : VerifyItem),
      (verdictOf (some secret) item = .matched ↔
        item.response.b1 = keystream secret item.challenge ∧ item.response.b2 = keystream secret (item.challenge + 1) ∧
          item.response.b3 = keystream secret (item.challenge + 2) ∧
          item.response.b4 = keystream secret (item.challenge + 3)) ∧
      (verdictOf (some secret) item ≠ .matched → verdictOf (some secret) item = .mismatch)) ∧
  (∀ s : State, s.pulsed →
    (s.boundary.takeDue = true →
      exec .verificationTake s =
        .next
          { s with
            boundary := { s.boundary with takeDue := false }
            verifyQueue := s.verifyQueue.drop ((520 - 2 * s.reserved.length) / 4)
            verifyPause :=
              if s.verifyQueue.length - (520 - 2 * s.reserved.length) / 4 ≤ 8 then false else s.verifyPause
            inFlight :=
              s.inFlight ++
                (s.verifyQueue.take ((520 - 2 * s.reserved.length) / 4)).map
                  (fun i => ⟨i, verdictOf (s.entry i.entry).secret i⟩) }) ∧
    (s.boundary.takeDue = false → exec .verificationTake s = .next s))

/-- The items of a boundary complete in the order in which they were taken, each as those before it left the tables; void
items change nothing (R30, R95, R96). That an advance of the Second Count still due comes first is read from R101 and
R109 (assumption 5). -/
def Obligations.ItemsCompleteInOrder : Prop :=
  ∀ s : State, s.pulsed →
    (s.completing = [] → exec .verificationComplete s = .next s) ∧
    (∀ f rest, s.completing = f :: rest → s.boundary.secondDue = false →
      exec .verificationComplete s = exec .verificationComplete (State.completeItem { s with completing := rest } f)) ∧
    (∀ f, s.completing = [f] → s.boundary.secondDue = false →
      exec .verificationComplete s = .next (State.completeItem { s with completing := [] } f)) ∧
    (∀ f rest u, s.completing = f :: rest → s.boundary.secondDue = true → exec .secondCountAdvance s = .next u →
      exec .verificationComplete s = exec .verificationComplete u) ∧
    ∀ (f : FlightItem) (t : State), f.item.isVoid = true → t.completeItem f = t

/-- A MATCH for a FIRST candidate admits its entry at the candidate's position, displacing another owner first, and one
for a RENEW renews the admission: deadlines loaded from the group, counts at 0, WELCOME and ADMITTED queued
(R97, R98, R100, R101). -/
def Obligations.MatchAdmitsOrRenews : Prop :=
  ∀ (s : State) (f : FlightItem) (e p : Nat) (c : Candidate), s.agrees → f.item.isVoid = false →
    f.verdict = .matched → f.item.entry = e → f.item.position = p → (s.entry e).candidate = some c → c.position = p →
      (c.kind = .first → (s.position p).owner = none → s.completeItem f = (s.candidateLeft e p).admittedAt e p false) ∧
      (∀ x, c.kind = .first → (s.position p).owner = some x →
        ∃ d, AdmissionEnded (s.candidateLeft e p) d x p .absent ∧ d.highways = s.highways ∧
          SameReports d ((s.reportClosed s x p .displaced).report (.displaced x p e)) ∧
          s.completeItem f = d.admittedAt e p false) ∧
      (c.kind = .renew → s.completeItem f = (s.candidateLeft e p).admittedAt e p true)

/-- A MATCH for a MOVE candidate moves the admission: the old home loses it with its call closed, LAPSED MOVED and MOVED
are queued, any owner of the new desk is displaced, and the entry is admitted there (R98, R99, R101). -/
def Obligations.MatchMovesAdmission : Prop :=
  ∀ (s : State) (f : FlightItem) (e p h : Nat) (c : Candidate), s.agrees → f.item.isVoid = false →
    f.verdict = .matched → f.item.entry = e → f.item.position = p → (s.entry e).candidate = some c → c.position = p →
      c.kind = .move → (s.entry e).home = some h →
        ∃ m, AdmissionEnded (s.candidateLeft e p) m e h .admitted ∧
          m.highways = (s.replyTo h (.lapsed .moved)).highways ∧
          SameReports m ((s.reportClosed s e h .moved).report (.moved e h p)) ∧
          ((s.position p).owner = none → s.completeItem f = m.admittedAt e p false) ∧
          ∀ x, (s.position p).owner = some x →
            ∃ d, AdmissionEnded m d x p .absent ∧ d.highways = m.highways ∧
              SameReports d ((s.reportClosed m x p .displaced).report (.displaced x p e)) ∧
              s.completeItem f = d.admittedAt e p false

/-- A MISMATCH advances the failure count, staying at 7; below the group's limit a FIRST or MOVE is turned away and a
RENEW ends the admission, and REJECT FAILED with backoff and REJECTED are queued (R102, R104).

A MISMATCH that brings the failure count to the group's limit bars the entry: an admission ends, the old desk of a
MOVE is told LAPSED FORCED, and BARRED, REJECT FAILED with backoff and REJECTED are queued (R102, R103). That REJECTED then
says barred for a MOVE or a RENEW too, whose admission has ended as well, is the model's own choice (assumption 20). -/
def Obligations.MismatchIsCounted : Prop :=
  (∀ (s u : State) (f : FlightItem) (e p failures : Nat) (c : Candidate), s.agrees → f.item.isVoid = false →
    f.verdict = .mismatch → f.item.entry = e → f.item.position = p → (s.entry e).candidate = some c → c.position = p →
      failures = min 7 ((s.entry e).failures + 1) → failures < (s.group (s.entry e).group).failureLimit →
        u = (s.setEntry e { s.entry e with candidate := none, failures := failures }).setPosition p
            { s.position p with pending := none } →
          (c.kind ≠ .renew →
            s.completeItem f =
              (u.repliedWithBackoff p (.reject .failed)).report (.rejected e p c.kind .failed .noChange)) ∧
          (c.kind = .renew →
            ∃ d, AdmissionEnded u d e p .absent ∧ d.highways = s.highways ∧
              SameReports d (s.reportClosed s e p .renewFailed) ∧
              s.completeItem f =
                (d.repliedWithBackoff p (.reject .failed)).report (.rejected e p .renew .failed .admissionEnded))) ∧
  (∀ (s u : State) (f : FlightItem) (e p failures : Nat) (c : Candidate), s.agrees → f.item.isVoid = false →
    f.verdict = .mismatch → f.item.entry = e → f.item.position = p → (s.entry e).candidate = some c → c.position = p →
      failures = min 7 ((s.entry e).failures + 1) → (s.group (s.entry e).group).failureLimit ≤ failures →
        u = (s.setEntry e { s.entry e with candidate := none, failures := failures }).setPosition p
            { s.position p with pending := none } →
          (c.kind = .first →
            s.completeItem f =
              (((u.setEntry e { u.entry e with state := .barred }).report (.barred e p failures)).repliedWithBackoff p
                (.reject .failed)).report (.rejected e p .first .failed .nowBarred)) ∧
          (∀ h, c.kind = .move → (s.entry e).home = some h →
            ∃ d, AdmissionEnded u d e h .barred ∧ d.highways = (s.replyTo h (.lapsed .forced)).highways ∧
              SameReports d ((s.reportClosed s e h .barred).report (.barred e h failures)) ∧
              s.completeItem f =
                (d.repliedWithBackoff p (.reject .failed)).report (.rejected e p .move .failed .nowBarred)) ∧
          (c.kind = .renew →
            ∃ d, AdmissionEnded u d e p .barred ∧ d.highways = s.highways ∧
              SameReports d ((s.reportClosed s e p .barred).report (.barred e p failures)) ∧
              s.completeItem f =
                (d.repliedWithBackoff p (.reject .failed)).report (.rejected e p .renew .failed .nowBarred)))

/-- A NOT READY outcome turns a FIRST or MOVE away and ends the admission of a RENEW, without backoff and without a change
of the failure count; REJECT NOT READY and REJECTED are queued (R105). -/
def Obligations.NotReadyTurnsAway : Prop :=
  ∀ (s : State) (f : FlightItem) (e p : Nat) (c : Candidate), s.agrees → f.item.isVoid = false →
    f.verdict = .notReady → f.item.entry = e → f.item.position = p → (s.entry e).candidate = some c → c.position = p →
      (c.kind ≠ .renew →
        s.completeItem f =
          ((s.candidateLeft e p).replyTo p (.reject .notReady 0)).report
            (.rejected e p c.kind .notReady .noChange)) ∧
      (c.kind = .renew →
        ∃ d, AdmissionEnded (s.candidateLeft e p) d e p .absent ∧ d.highways = s.highways ∧
          SameReports d (s.reportClosed s e p .renewFailed) ∧
          s.completeItem f =
            (d.replyTo p (.reject .notReady 0)).report (.rejected e p .renew .notReady .admissionEnded))

/-! ### Deadlines (R10, R11, R77, R86, R87, R108, R110, R111) -/

/-- A hold-off deadline is made absent at the boundary at which the Frame Count equals it, and only then (R10, R77).

The answer deadline of a FIRST or MOVE candidate removes it and rejects TIMEOUT; that of a RENEW ends the admission as
well, with cause RENEW TIMEOUT; at no other Frame Count and at no QUEUED candidate does anything happen (R10, R86, R87). -/
def Obligations.FrameDeadlinesAct : Prop :=
  (∀ (p : Fin 480) (s : State), s.pulsed →
    ((s.position p.val).holdOff = some s.frameCount →
      exec (.holdOffDeadline p) s = .next (s.setPosition p.val { s.position p.val with holdOff := none })) ∧
    ((s.position p.val).holdOff ≠ some s.frameCount → exec (.holdOffDeadline p) s = .next s)) ∧
  (∀ (e : Fin 1024) (s : State), s.pulsed → s.agrees →
    (∀ c, (s.entry e.val).candidate = some c → c.stage = .awaiting s.frameCount → c.kind ≠ .renew →
      exec (.answerDeadline e) s =
        .next ((s.candidateLeft e.val c.position).replyTo c.position (.reject .timeout 0))) ∧
    (∀ c, (s.entry e.val).candidate = some c → c.stage = .awaiting s.frameCount → c.kind = .renew →
      ∃ t, exec (.answerDeadline e) s = .next t ∧ AdmissionEnded s t e.val c.position .absent ∧
        t.highways = (s.replyTo c.position (.reject .timeout 0)).highways ∧
        SameReports t
          ((s.reportClosed s e.val c.position .renewTimeout).report (.lapsed e.val c.position .renewTimeout))) ∧
    ((∀ c, (s.entry e.val).candidate = some c → c.stage ≠ .awaiting s.frameCount) →
      exec (.answerDeadline e) s = .next s))

/-- An admission lapses when the Second Count equals its refresh deadline: any MOVE candidate is dropped, the call closed,
the home unbound, and LAPSED TIMEOUT and the LAPSED report are queued (R11, R108).

When the Second Count equals a re-challenge deadline, a candidate of the entry, a pending entry at its home or the
Verification Pause postpones it by one second; otherwise a RENEW candidate is created at the home, both deadlines are
made absent, and CHALLENGE is queued (R11, R110, R111). -/
def Obligations.SecondsDeadlinesAct : Prop :=
  (∀ (e : Fin 1024) (s : State), s.pulsed → s.agrees →
    (∀ p, (s.entry e.val).refresh = some s.secondCount → (s.entry e.val).home = some p →
      ∃ t, exec (.refreshLapse e) s = .next t ∧ AdmissionEnded s t e.val p .absent ∧
        t.highways = (s.replyTo p (.lapsed .timeout)).highways ∧
        SameReports t ((s.reportClosed s e.val p .lapsed).report (.lapsed e.val p .timeout))) ∧
    ((s.entry e.val).refresh ≠ some s.secondCount → exec (.refreshLapse e) s = .next s)) ∧
  (∀ (e : Fin 1024) (s : State), s.pulsed →
    (∀ p, (s.entry e.val).rechallenge = some s.secondCount → (s.entry e.val).home = some p →
      ((s.entry e.val).candidate ≠ none ∨ (s.position p).pending ≠ none ∨ s.verifyPause = true →
        exec (.rechallengeDeadline e) s =
          .next (s.setEntry e.val { s.entry e.val with rechallenge := some (s.secondCount + 1) })) ∧
      ((s.entry e.val).candidate = none → (s.position p).pending = none → s.verifyPause = false →
        exec (.rechallengeDeadline e) s =
          .next
            (((s.setEntry e.val
                { s.entry e.val with
                  rechallenge := none, refresh := none
                  candidate :=
                    some ⟨p, .renew, s.frameCount,
                      .awaiting (s.frameCount + BitVec.ofNat 24 s.settings.answerWindow)⟩ }).setPosition p
                { s.position p with pending := some e.val }).replyTo p (.challenge s.frameCount)))) ∧
    ((s.entry e.val).rechallenge ≠ some s.secondCount → exec (.rechallengeDeadline e) s = .next s))

/-! ### Line cells (R70, R81, R82, R84, R88, R90, R91) -/

/-- A line cell that is idle, of unknown kind, or of a known kind with a slot of 120 or more changes no state (R70).

An idle management cell changes nothing, and one of unknown kind is answered REFUSED UNKNOWN KIND with its tag and kind
and changes nothing else (R164, R165; the slots and the echoed kind are assumptions 10 and 11). -/
def Obligations.CellsWithoutEffect : Prop :=
  (∀ (h : Fin 4) (s : State),
    exec (.lineIdle h) s = .next s ∧ (∀ kind slot, exec (.lineCellDiscarded h kind slot) s = .next s) ∧
      (∀ slot identity, 120 ≤ slot → exec (.signOn h slot identity) s = .next s) ∧
      (∀ slot response, 120 ≤ slot → exec (.answer h slot response) s = .next s) ∧
      (∀ slot, 120 ≤ slot → exec (.keepalive h slot) s = .next s) ∧
      ∀ slot, 120 ≤ slot → exec (.signOff h slot) s = .next s) ∧
  (∀ (tag : Byte) (kind : Nat) (s : State),
    exec .managementIdle s = .next s ∧
      (s.inFrame → exec (.unknownKind tag kind) s = .next (s.refused tag kind .unknownKind)))

/-- The checks of a SIGN-ON in order, each with its reply and its backoff, as far as the check that no loaded entry holds
the identity (R55, R78, R81 checks 1 to 4).

The checks of a SIGN-ON that read the entry holding the identity, and the candidate that is created when all are
passed: FIRST for an ABSENT entry, RENEW at its home, MOVE elsewhere (R81 checks 5 to 8, R82). -/
def Obligations.SignOnIsChecked : Prop :=
  (∀ (h : Fin 4) (slot identity p : Nat) (s : State), s.wf = true → s.inFrame → slot < 120 → p = 120 * h.val + slot →
    (∀ deadline, (s.position p).holdOff = some deadline →
      exec (.signOn h slot identity) s = .next (s.replyTo p (.wait (deadline - s.frameCount).toNat))) ∧
    ((s.position p).holdOff = none → s.verifyPause = true ∨ s.reportPause = true →
      exec (.signOn h slot identity) s = .next (s.repliedWithBackoff p .wait)) ∧
    ((s.position p).holdOff = none → s.verifyPause = false → s.reportPause = false → (s.position p).pending ≠ none →
      exec (.signOn h slot identity) s = .next (s.repliedWithBackoff p (.reject .busy))) ∧
    ((s.position p).holdOff = none → s.verifyPause = false → s.reportPause = false → (s.position p).pending = none →
      (∀ e, (s.entry e).loaded = true → (s.entry e).identity ≠ identity) →
        exec (.signOn h slot identity) s =
          .next ((s.repliedWithBackoff p (.reject .unknown)).report (.unknownIdentity identity p)))) ∧
  (∀ (h : Fin 4) (slot identity p e : Nat) (s : State), s.wf = true → s.identitiesUnique → s.inFrame → slot < 120 →
    p = 120 * h.val + slot → (s.position p).holdOff = none → s.verifyPause = false → s.reportPause = false →
      (s.position p).pending = none → (s.entry e).loaded = true → (s.entry e).identity = identity →
        ((s.entry e).state = .barred →
          exec (.signOn h slot identity) s = .next (s.repliedWithBackoff p (.reject .barred))) ∧
        ((s.entry e).state ≠ .barred → (s.entry e).secret = none →
          exec (.signOn h slot identity) s = .next (s.repliedWithBackoff p (.reject .notReady))) ∧
        ((s.entry e).state ≠ .barred → (s.entry e).secret ≠ none → (s.entry e).candidate ≠ none →
          exec (.signOn h slot identity) s = .next (s.repliedWithBackoff p (.reject .busy))) ∧
        ∀ kind : CandidateKind, (s.entry e).state ≠ .barred → (s.entry e).secret ≠ none →
          (s.entry e).candidate = none → ((s.entry e).state = .absent → kind = .first) →
            ((s.entry e).state = .admitted → (s.entry e).home = some p → kind = .renew) →
              ((s.entry e).state = .admitted → (s.entry e).home ≠ some p → kind = .move) →
                exec (.signOn h slot identity) s =
                  .next
                    (((s.setEntry e
                        { s.entry e with
                          refresh := if kind = .renew then none else (s.entry e).refresh
                          candidate :=
                            some ⟨p, kind, s.frameCount,
                              .awaiting (s.frameCount + BitVec.ofNat 24 s.settings.answerWindow)⟩ }).setPosition p
                        { s.position p with pending := some e }).replyTo p (.challenge s.frameCount)))

/-- The cases of an ANSWER: nothing pending, a QUEUED candidate, a full Verification Queue, and the item appended with the
Verification Pause set at 24 (R84, R92, R94).

The cases of a KEEPALIVE: no owner, a RENEW still AWAITING, a RENEW QUEUED, and otherwise the refresh deadline stored
anew from the group (R88). -/
def Obligations.AnswerAndKeepaliveAreDecided : Prop :=
  (∀ (h : Fin 4) (slot p : Nat) (response : Response) (s : State), s.inFrame → slot < 120 → p = 120 * h.val + slot →
    ((s.position p).pending = none →
      exec (.answer h slot response) s = .next (s.replyTo p (.reject .noChallenge 0))) ∧
    ∀ e c, (s.position p).pending = some e → (s.entry e).candidate = some c →
      (c.stage = .queued → exec (.answer h slot response) s = .next s) ∧
      (c.stage ≠ .queued → 32 ≤ s.verifyQueue.length →
        exec (.answer h slot response) s = .next (s.repliedWithBackoff p .wait)) ∧
      (c.stage ≠ .queued → s.verifyQueue.length < 32 →
        exec (.answer h slot response) s =
          .next
            { (s.setEntry e { s.entry e with candidate := some ⟨c.position, c.kind, c.challenge, .queued⟩ }) with
              verifyQueue := s.verifyQueue ++ [⟨e, p, c.challenge, response, false⟩]
              verifyPause := if s.verifyQueue.length = 23 then true else s.verifyPause })) ∧
  (∀ (h : Fin 4) (slot p : Nat) (s : State), s.inFrame → slot < 120 → p = 120 * h.val + slot →
    ((s.position p).owner = none →
      exec (.keepalive h slot) s = .next (s.replyTo p (.reject .notSignedOn 0))) ∧
    ∀ e, (s.position p).owner = some e →
      (∀ c, (s.entry e).candidate = some c → c.kind = .renew → c.stage ≠ .queued →
        exec (.keepalive h slot) s = .next (s.replyTo p (.challenge c.challenge))) ∧
      (∀ c, (s.entry e).candidate = some c → c.kind = .renew → c.stage = .queued →
        exec (.keepalive h slot) s = .next s) ∧
      ((∀ c, (s.entry e).candidate = some c → c.kind ≠ .renew) →
        exec (.keepalive h slot) s =
          .next
            (s.setEntry e
              { s.entry e with
                refresh := some (s.secondCount + BitVec.ofNat 16 (s.group (s.entry e).group).refresh) })))

/-- A SIGN-OFF ends the owner's admission with SIGNED OFF, then drops any candidate still pending at the position, and is
answered LAPSED SIGNED OFF in every case (R90, R91). -/
def Obligations.SignOffEndsAdmission : Prop :=
  ∀ (h : Fin 4) (slot p : Nat) (s : State), s.agrees → s.inFrame → slot < 120 → p = 120 * h.val + slot →
    ∃ d t, exec (.signOff h slot) s = .next (t.replyTo p (.lapsed .signedOff)) ∧
      ((s.position p).owner = none → d = s) ∧
      (∀ e, (s.position p).owner = some e → AdmissionEnded s d e p .absent ∧ d.highways = s.highways ∧
        SameReports d ((s.reportClosed s e p .signedOff).report (.signedOff e p))) ∧
      ((d.position p).pending = none → t = d) ∧
      (∀ f, (d.position p).pending = some f → CandidateDropped d t f) ∧ (t.position p).pending = none

/-! ### Management cells for entries, groups and keys (R56 to R62, R67, R68, R124, R164 to R167) -/

/-- An index beyond its table is refused BAD INDEX before any other check, whatever the cell carries, and nothing else
changes (R49, R50, R56, R57, R59 to R62, R67, R68, R117, R121, R124, R156, R158, R159, R165). -/
def Obligations.BadIndexIsRefusedFirst : Prop :=
  ∀ (tag : Byte) (s : State), s.inFrame →
    (∀ e, 1023 < e →
      (∀ group identity, exec (.loadExtension tag e group identity) s = .next (s.refused tag 1 .badIndex)) ∧
      exec (.unloadExtension tag e) s = .next (s.refused tag 2 .badIndex) ∧
      (∀ half first second, exec (.secretHalf tag half e first second) s = .next (s.refused tag 3 .badIndex)) ∧
      exec (.forceSignOff tag e) s = .next (s.refused tag 4 .badIndex) ∧
      exec (.bar tag e) s = .next (s.refused tag 5 .badIndex) ∧
      exec (.unbar tag e) s = .next (s.refused tag 6 .badIndex)) ∧
    (∀ g, 15 < g →
      (∀ budget limit, exec (.setGroupLimits tag g budget limit) s = .next (s.refused tag 7 .badIndex)) ∧
      ∀ refresh rechallenge, exec (.setGroupTimes tag g refresh rechallenge) s = .next (s.refused tag 8 .badIndex)) ∧
    (∀ j, 255 < j →
      (∀ half first second, exec (.stagedHalf tag half j first second) s = .next (s.refused tag 9 .badIndex)) ∧
      (∀ position loopFlag, exec (.openCall tag j position loopFlag) s = .next (s.refused tag 10 .badIndex)) ∧
      exec (.closeCall tag j) s = .next (s.refused tag 11 .badIndex)) ∧
    (∀ p, 479 < p →
      (∀ treatment tone, exec (.setPositionTreatment tag p treatment tone) s = .next (s.refused tag 12 .badIndex)) ∧
      ∀ direction gain, exec (.setPositionGain tag p direction gain) s = .next (s.refused tag 13 .badIndex)) ∧
    (∀ a c0 c1 c2 c3, 8188 < a → exec (.loadPattern tag a c0 c1 c2 c3) s = .next (s.refused tag 14 .badIndex)) ∧
    ∀ c, 15 < c →
      (∀ repeats mode start length,
        exec (.setPlayout tag c repeats mode start length) s = .next (s.refused tag 15 .badIndex)) ∧
      exec (.stopPlayout tag c) s = .next (s.refused tag 16 .badIndex)

/-- LOAD EXTENSION: the checks after the index, in order, and the entry that an accepted cell leaves: the secret goes with
a changed identity, an UNLOADED entry becomes ABSENT with its failures cleared, and a bar stands (R57). -/
def Obligations.LoadExtensionWritesEntry : Prop :=
  ∀ (tag : Byte) (e group identity : Nat) (s : State), s.wf = true → s.inFrame → e ≤ 1023 →
    (99999999 < identity →
      exec (.loadExtension tag e group identity) s = .next (s.refused tag 1 .badValue)) ∧
    (identity ≤ 99999999 → s.identityElsewhere e identity →
      exec (.loadExtension tag e group identity) s = .next (s.refused tag 1 .duplicate)) ∧
    (identity ≤ 99999999 → ¬ s.identityElsewhere e identity →
      (s.entry e).state = .admitted ∨ (s.entry e).candidate ≠ none →
        exec (.loadExtension tag e group identity) s = .next (s.refused tag 1 .inUse)) ∧
    (identity ≤ 99999999 → ¬ s.identityElsewhere e identity → (s.entry e).state ≠ .admitted →
      (s.entry e).candidate = none →
        exec (.loadExtension tag e group identity) s =
          .next
            ((s.accepted tag (.entryCommand .loadExtension e)).setEntry e
              { s.entry e with
                identity := identity, group := group
                secret := if (s.entry e).identity = identity then (s.entry e).secret else none
                state := if (s.entry e).state = .barred then .barred else .absent
                failures := if (s.entry e).state = .unloaded then 0 else (s.entry e).failures }))

/-- UNBAR: an entry above 1023 is refused BAD INDEX, one that is not BARRED is refused NOT BARRED, and a BARRED entry
becomes ABSENT with its failure count 0 and ACCEPTED queued; nothing else changes (R62). -/
def Obligations.UnbarMakesAbsent : Prop :=
  ∀ (tag : Byte) (e : Nat) (s : State), s.inFrame →
    (1023 < e → exec (.unbar tag e) s = .next (s.refused tag 6 .badIndex)) ∧
    (e ≤ 1023 → (s.entry e).state ≠ .barred → exec (.unbar tag e) s = .next (s.refused tag 6 .notBarred)) ∧
    (e ≤ 1023 → (s.entry e).state = .barred →
      exec (.unbar tag e) s =
        .next
          ((s.accepted tag (.entryCommand .unbar e)).setEntry e { s.entry e with state := .absent, failures := 0 }))

/-- UNLOAD EXTENSION, FORCE SIGN-OFF and BAR of an ADMITTED entry force it off: the answer, then the end of the admission
with the cell's cause, then LAPSED FORCED toward the home; an unload clears the failures as well (R58 to R61).

UNLOAD EXTENSION, FORCE SIGN-OFF and BAR of an entry that is not ADMITTED: refused for an UNLOADED entry, and FORCE
SIGN-OFF for one without a candidate; otherwise any candidate is dropped and the entry takes the state the cell names
(R58 to R61). -/
def Obligations.EntriesAreForcedOff : Prop :=
  (∀ (tag : Byte) (e p : Nat) (s : State), s.agrees → s.inFrame → e ≤ 1023 → (s.entry e).state = .admitted →
    (s.entry e).home = some p →
      (∃ t, exec (.forceSignOff tag e) s = .next t ∧ AdmissionEnded s t e p .absent ∧
        t.highways = (s.replyTo p (.lapsed .forced)).highways ∧
        SameReports t (s.reportClosed (s.accepted tag (.entryCommand .forceSignOff e)) e p .signedOff)) ∧
      (∃ t, exec (.bar tag e) s = .next t ∧ AdmissionEnded s t e p .barred ∧
        t.highways = (s.replyTo p (.lapsed .forced)).highways ∧
        SameReports t (s.reportClosed (s.accepted tag (.entryCommand .bar e)) e p .barred)) ∧
      ∃ d, AdmissionEnded s d e p .unloaded ∧ d.highways = (s.replyTo p (.lapsed .forced)).highways ∧
        SameReports d (s.reportClosed (s.accepted tag (.entryCommand .unloadExtension e)) e p .unloaded) ∧
        exec (.unloadExtension tag e) s = .next (d.setEntry e { d.entry e with failures := 0 })) ∧
  (∀ (tag : Byte) (e : Nat) (s : State), s.inFrame → e ≤ 1023 →
    ((s.entry e).state = .unloaded →
      exec (.unloadExtension tag e) s = .next (s.refused tag 2 .notLoaded) ∧
        exec (.forceSignOff tag e) s = .next (s.refused tag 4 .notLoaded) ∧
        exec (.bar tag e) s = .next (s.refused tag 5 .notLoaded) ∧
        ∀ half first second, exec (.secretHalf tag half e first second) s = .next (s.refused tag 3 .notLoaded)) ∧
    ((s.entry e).state = .absent ∨ (s.entry e).state = .barred →
      ((s.entry e).candidate = none →
        exec (.forceSignOff tag e) s = .next (s.refused tag 4 .notAdmitted)) ∧
      ((s.entry e).candidate ≠ none →
        ∃ d, CandidateDropped (s.accepted tag (.entryCommand .forceSignOff e)) d e ∧
          exec (.forceSignOff tag e) s = .next (d.setEntry e { d.entry e with state := .absent })) ∧
      (∃ d, CandidateDropped (s.accepted tag (.entryCommand .bar e)) d e ∧
        exec (.bar tag e) s = .next (d.setEntry e { d.entry e with state := .barred })) ∧
      ∃ d, CandidateDropped (s.accepted tag (.entryCommand .unloadExtension e)) d e ∧
        exec (.unloadExtension tag e) s = .next (d.setEntry e { d.entry e with state := .unloaded, failures := 0 })))

/-- SECRET HALF for a loaded entry: the secret is made absent, or present with the four joined words when the Pair Buffer
holds the other half for the same entry; a half held for another target is broken, and reported after the answer
(R56, R166, R167).

STAGED HALF: refused STAGED BUSY while exactly one side has taken the staged key; otherwise the staged key is made
absent, or present and untaken with the joined words when the pair is complete; a half held for another target is broken
(R124, R166, R167). -/
def Obligations.HalvesJoinIntoKeys : Prop :=
  (∀ (tag : Byte) (e : Nat) (a b : KeyWord) (s : State), s.inFrame → e ≤ 1023 → (s.entry e).state ≠ .unloaded →
    (∀ c d, s.pairBuffer = some ⟨.secret e, .high, c, d⟩ →
      exec (.secretHalf tag .low e a b) s =
        .next
          (({ s with pairBuffer := none }.setEntry e { s.entry e with secret := some ⟨a, b, c, d⟩ }).accepted tag
            (.secretHalf e .low true))) ∧
    (∀ c d, s.pairBuffer = some ⟨.secret e, .low, c, d⟩ →
      exec (.secretHalf tag .high e a b) s =
        .next
          (({ s with pairBuffer := none }.setEntry e { s.entry e with secret := some ⟨c, d, a, b⟩ }).accepted tag
            (.secretHalf e .high true))) ∧
    (∀ half, s.pairBuffer = none ∨ (∃ c d, s.pairBuffer = some ⟨.secret e, half, c, d⟩) →
      exec (.secretHalf tag half e a b) s =
        .next
          (({ s with pairBuffer := some ⟨.secret e, half, a, b⟩ }.setEntry e
              { s.entry e with secret := none }).accepted tag (.secretHalf e half false))) ∧
    ∀ half old, s.pairBuffer = some old → old.target ≠ .secret e →
      exec (.secretHalf tag half e a b) s =
        .next
          ((({ s with pairBuffer := some ⟨.secret e, half, a, b⟩ }.setEntry e
              { s.entry e with secret := none }).accepted tag (.secretHalf e half false)).report
            (.pairBroken old.target old.half))) ∧
  (∀ (tag : Byte) (j : Nat) (a b : KeyWord) (s : State), s.inFrame → j ≤ 255 →
    (∀ k half, (s.context j).staged = some k → k.txTaken ≠ k.rxTaken →
      exec (.stagedHalf tag half j a b) s = .next (s.refused tag 9 .stagedBusy)) ∧
    ((∀ k, (s.context j).staged = some k → k.txTaken = k.rxTaken) →
      (∀ c d, s.pairBuffer = some ⟨.stagedKey j, .high, c, d⟩ →
        exec (.stagedHalf tag .low j a b) s =
          .next
            (({ s with pairBuffer := none }.setContext j
                { s.context j with staged := some ⟨⟨a, b, c, d⟩, false, false⟩ }).accepted tag
              (.stagedHalf j .low true))) ∧
      (∀ c d, s.pairBuffer = some ⟨.stagedKey j, .low, c, d⟩ →
        exec (.stagedHalf tag .high j a b) s =
          .next
            (({ s with pairBuffer := none }.setContext j
                { s.context j with staged := some ⟨⟨c, d, a, b⟩, false, false⟩ }).accepted tag
              (.stagedHalf j .high true))) ∧
      (∀ half, s.pairBuffer = none ∨ (∃ c d, s.pairBuffer = some ⟨.stagedKey j, half, c, d⟩) →
        exec (.stagedHalf tag half j a b) s =
          .next
            (({ s with pairBuffer := some ⟨.stagedKey j, half, a, b⟩ }.setContext j
                { s.context j with staged := none }).accepted tag (.stagedHalf j half false))) ∧
      ∀ half old, s.pairBuffer = some old → old.target ≠ .stagedKey j →
        exec (.stagedHalf tag half j a b) s =
          .next
            ((({ s with pairBuffer := some ⟨.stagedKey j, half, a, b⟩ }.setContext j
                { s.context j with staged := none }).accepted tag (.stagedHalf j half false)).report
              (.pairBroken old.target old.half))))

/-- SET GROUP LIMITS: a group above 15 is refused; a budget above 256 is applied as 256 and one below the in-use count as
that count; a failure limit of 0 is applied as 1 and one above 7 as 7; every other value as carried; and ACCEPTED carries
the applied values (R67).

SET GROUP TIMES: a group above 15 is refused; a refresh interval of 0 is applied as 1 and one above 4095 as 4095; a
re-challenge interval above 32767 as 32767; every other value as carried; ACCEPTED carries the applied values, and no
deadline moves (R68). -/
def Obligations.GroupValuesAreClamped : Prop :=
  (∀ (tag : Byte) (g budget limit : Nat) (s : State), s.inFrame →
    (15 < g → exec (.setGroupLimits tag g budget limit) s = .next (s.refused tag 7 .badIndex)) ∧
    (g ≤ 15 → (s.group g).inUse ≤ 256 →
      ∃ b l, exec (.setGroupLimits tag g budget limit) s =
          .next
            ((s.accepted tag (.setGroupLimits g b l)).setGroup g
              { s.group g with budget := b, failureLimit := l }) ∧
        (256 < budget → b = 256) ∧ (budget < (s.group g).inUse → b = (s.group g).inUse) ∧
        ((s.group g).inUse ≤ budget → budget ≤ 256 → b = budget) ∧
        (limit = 0 → l = 1) ∧ (7 < limit → l = 7) ∧ (1 ≤ limit → limit ≤ 7 → l = limit))) ∧
  (∀ (tag : Byte) (g refresh rechallenge : Nat) (s : State), s.inFrame →
    (15 < g → exec (.setGroupTimes tag g refresh rechallenge) s = .next (s.refused tag 8 .badIndex)) ∧
    (g ≤ 15 →
      ∃ r c, exec (.setGroupTimes tag g refresh rechallenge) s =
          .next
            ((s.accepted tag (.setGroupTimes g r c)).setGroup g { s.group g with refresh := r, rechallenge := c }) ∧
        (refresh = 0 → r = 1) ∧ (4095 < refresh → r = 4095) ∧ (1 ≤ refresh → refresh ≤ 4095 → r = refresh) ∧
        (32767 < rechallenge → c = 32767) ∧ (rechallenge ≤ 32767 → c = rechallenge)))

/-! ### Calls (R37, R66, R117, R118, R120, R121, R125, R130 to R134) -/

/-- The checks of an OPEN CALL after the context's index, each with its refusal, the first that applies deciding (R117). -/
def Obligations.OpenCallIsChecked : Prop :=
  ∀ (tag : Byte) (j p flag : Nat) (s : State), s.inFrame → j ≤ 255 →
    ((s.context j).call ≠ none → exec (.openCall tag j p flag) s = .next (s.refused tag 10 .inUse)) ∧
    ((s.context j).call = none → 479 < p → exec (.openCall tag j p flag) s = .next (s.refused tag 10 .badIndex)) ∧
    ((s.context j).call = none → p ≤ 479 → 1 < flag →
      exec (.openCall tag j p flag) s = .next (s.refused tag 10 .badValue)) ∧
    ((s.context j).call = none → p ≤ 479 → flag ≤ 1 →
      ((s.position p).owner = none → exec (.openCall tag j p flag) s = .next (s.refused tag 10 .notAdmitted)) ∧
      ∀ e, (s.position p).owner = some e →
        ((s.position p).requested = .lineLoop ∨ (s.position p).requested = .switchLoop →
          exec (.openCall tag j p flag) s = .next (s.refused tag 10 .looped)) ∧
        ((s.position p).requested.isLoop = false →
          (∀ k, (s.position p).context = some k → (s.context k).call ≠ none →
            exec (.openCall tag j p flag) s = .next (s.refused tag 10 .positionBusy)) ∧
          (s.noCallAt p →
            ((∀ k, (s.context j).staged = some k → k.txTaken = true ∨ k.rxTaken = true) →
              exec (.openCall tag j p flag) s = .next (s.refused tag 10 .noKey)) ∧
            ∀ k, (s.context j).staged = some k → k.txTaken = false → k.rxTaken = false →
              (s.group (s.entry e).group).budget ≤ (s.group (s.entry e).group).inUse →
                exec (.openCall tag j p flag) s = .next (s.refused tag 10 .groupFull))))

/-- An OPEN CALL that passes every check: the context is OPEN for the position and its owner with the staged key as both
keys and its counts at their starting values, the position's hold sample is 255, a code already waiting from this frame's
upstream arrival gives way to burst byte 1, and the group's in-use count advances (R37, R66, R118). That a context opened
within a frame owes no advance for the boundary before it is read from R130 (assumption 6). -/
def Obligations.OpenCallOpensContext : Prop :=
  ∀ (tag : Byte) (j p e flag : Nat) (key : Key) (s : State), s.inFrame → j ≤ 255 → (s.context j).call = none → p ≤ 479 →
    flag ≤ 1 → (s.position p).owner = some e → (s.position p).requested.isLoop = false → s.noCallAt p →
      (s.context j).staged = some ⟨key, false, false⟩ →
        (s.group (s.entry e).group).inUse < (s.group (s.entry e).group).budget →
          exec (.openCall tag j p flag) s =
            .next
              (((((({ s with
                    boundary := { s.boundary with txDue := s.boundary.txDue.erase j } } : State).setContext j
                  { s.context j with
                    call := some ⟨p, e, key, key⟩, loop := decide (flag = 1), staged := none
                    txGeneration := 0, rxGeneration := 0, txFrame := 0, skipReported := false
                    sync := .hunt, misses := 0, slips := 0, window := [] }).setPosition p
                  { s.position p with
                    context := some j, hold := 255
                    switchWaiting :=
                      if (s.position p).upTaken then 27 else (s.position p).switchWaiting }).setEntry e
                  { s.entry e with context := some j }).setGroup (s.entry e).group
                  { s.group (s.entry e).group with inUse := (s.group (s.entry e).group).inUse + 1 }).accepted tag
                (.openCall j p e))

/-- CLOSE CALL: a FREE context is accepted and left as it is; an OPEN one becomes FREE with its key, window and staged key
gone, the position, the entry and the group's in-use count lose it, and CALL CLOSED with cause REQUESTED follows the
answer (R66, R120, R121). -/
def Obligations.CloseCallFreesContext : Prop :=
  ∀ (tag : Byte) (j : Nat) (s : State), s.inFrame → j ≤ 255 →
    ((s.context j).call = none → exec (.closeCall tag j) s = .next (s.accepted tag (.closeCall j false))) ∧
    ∀ call, (s.context j).call = some call →
      exec (.closeCall tag j) s =
        .next
          (((((({ s with reserved := s.reserved.erase j } : State).setContext j
                { s.context j with call := none, staged := none, window := [] }).setGroup (s.entry call.entry).group
                { s.group (s.entry call.entry).group with
                  inUse := (s.group (s.entry call.entry).group).inUse - 1 }).setPosition call.position
                { s.position call.position with context := none }).setEntry call.entry
                { s.entry call.entry with context := none }).accepted tag (.closeCall j true)
            |>.report (.callClosed j call.position call.entry .requested))

/-- At a boundary the tx frame number of an OPEN context advances by one, once. On a rekey boundary a staged key that the
transmit side has not taken becomes the tx key, one generation on; without one, a skip is reported once in a run
(R125, R130, R132 to R134; once at each boundary is assumption 2).

The transmit side's work of a boundary is done once, and not for a context that is FREE; an upstream arrival that a
cut-short frame still owes the context's position is handled first, with the number and key of its own frame
(R123, R130, R131; the order is assumption 5). -/
def Obligations.TransmitSideAdvances : Prop :=
  (∀ (j : Fin 256) (call : Call) (s u : State) (n : FrameNumber), s.pulsed → j.val ∈ s.boundary.txDue →
    (s.context j.val).call = some call → call.position ∉ s.boundary.suppliedUp → n = (s.context j.val).txFrame + 1 →
      u = { s with boundary := { s.boundary with txDue := s.boundary.txDue.erase j.val } } →
        ((s.settings.rekeyMultiple = 0 ∨ n.toNat % (s.settings.rekeyMultiple * s.settings.syncSpan) ≠ 0) →
          exec (.txFrameAdvance j) s = .next (u.setContext j.val { s.context j.val with txFrame := n })) ∧
        (s.settings.rekeyMultiple ≠ 0 → n.toNat % (s.settings.rekeyMultiple * s.settings.syncSpan) = 0 →
          (∀ key g, g = (s.context j.val).txGeneration + 1 →
            ((s.context j.val).staged = some ⟨key, false, false⟩ →
              exec (.txFrameAdvance j) s =
                .next
                  ((u.setContext j.val
                    { s.context j.val with
                      txFrame := n, call := some ⟨call.position, call.entry, key, call.rxKey⟩, txGeneration := g
                      skipReported := false, staged := some ⟨key, true, false⟩ }).report
                    (.txRekeyed j.val call.position g n))) ∧
            ((s.context j.val).staged = some ⟨key, false, true⟩ →
              exec (.txFrameAdvance j) s =
                .next
                  (((u.setContext j.val
                    { s.context j.val with
                      txFrame := n, call := some ⟨call.position, call.entry, key, call.rxKey⟩, txGeneration := g
                      skipReported := false, staged := none }).report
                    (.txRekeyed j.val call.position g n)).report (.stagedTaken j.val call.position g)))) ∧
          (∀ reason : SkipReason, ((s.context j.val).staged = none → reason = .noKey) →
            ((s.context j.val).staged ≠ none → reason = .notReceived) →
              (∀ k, (s.context j.val).staged = some k → k.txTaken = true) →
                exec (.txFrameAdvance j) s =
                  .next
                    (if (s.context j.val).skipReported then
                      u.setContext j.val { s.context j.val with txFrame := n }
                     else
                      (u.setContext j.val { s.context j.val with txFrame := n, skipReported := true }).report
                        (.txRekeySkipped j.val call.position (s.context j.val).txGeneration n reason))))) ∧
  (∀ (j : Fin 256) (s : State), s.pulsed →
    (j.val ∉ s.boundary.txDue → exec (.txFrameAdvance j) s = .next s) ∧
    (j.val ∈ s.boundary.txDue → (s.context j.val).call = none →
      exec (.txFrameAdvance j) s =
        .next { s with boundary := { s.boundary with txDue := s.boundary.txDue.erase j.val } }) ∧
    ∀ (call : Call) (p : Fin 480) (u : State), (s.context j.val).call = some call → call.position = p.val →
      j.val ∈ s.boundary.txDue → p.val ∈ s.boundary.suppliedUp → s.boundary.suppliedUp.Nodup →
        exec (.upstreamArrival p .supplied) s = .next u → exec (.txFrameAdvance j) s = exec (.txFrameAdvance j) u)

/-! ### Speech paths (R34, R36, R38 to R50, R139, R141 to R150) -/

/-- The upstream arrival of a position outside a scrambled call, by its effective treatment: LINE LOOP turns the code back
and silences the switch, SWITCH LOOP silences the line, a position without an owner or muted sends the switch 255, and
CLEAR and TONE send the code through the up gain with its clamp counted. A carried arrival finds its slots driven
(R2, R20, R34, R38 to R44; assumptions 5 and 18). -/
def Obligations.UpstreamOutsideCalls : Prop :=
  ∀ (p : Fin 480) (a : Arrival) (s : State) (pos : Position), s.pulsed → s.upArrives p.val a →
    pos = (s.position p.val).atArrival a →
      (pos.requested = .lineLoop →
        exec (.upstreamArrival p a) s =
          .next (s.afterUp p.val a { pos with lineWaiting := arrivalCode a, switchWaiting := 255 })) ∧
      (pos.requested = .switchLoop →
        exec (.upstreamArrival p a) s = .next (s.afterUp p.val a { pos with lineWaiting := 255 })) ∧
      (pos.requested.isLoop = false → pos.owner = none ∨ (s.noCallAt p.val ∧ pos.requested = .mute) →
        exec (.upstreamArrival p a) s = .next (s.afterUp p.val a { pos with switchWaiting := 255 })) ∧
      (pos.requested = .clear ∨ pos.requested = .tone → pos.owner ≠ none → s.noCallAt p.val →
        exec (.upstreamArrival p a) s =
          .next
            (s.afterUp p.val a
              { pos with
                switchWaiting := gainCode pos.upGain (arrivalCode a)
                upClamps :=
                  if gainClamps pos.upGain (arrivalCode a) then min 65535 (pos.upClamps + 1) else pos.upClamps }))

/-- The downstream arrival of a position outside a scrambled call, by its effective treatment: LINE LOOP discards the code,
SWITCH LOOP turns it back, PENDING hears the Challenge Tone, MUTE hears 255, TONE its tone channel, and CLEAR the code
through the down gain with its clamp counted (R2, R20, R34, R38 to R44, R47).

A listener hears the pattern code at the channel's position in ADVANCE mode and at its start in FIXED mode while the
channel is RUNNING, and 255 otherwise; a role of NONE gives 255 (R47, R161, R163).

A carried arrival comes after the playout advances of the boundary that began its frame and after that boundary's take of
the management cell (R7, R160). That both slots of its position have been driven is assumptions 5 and 18. -/
def Obligations.DownstreamOutsideCalls : Prop :=
  (∀ (p : Fin 480) (a : Arrival) (s : State) (pos : Position), s.pulsed → s.downArrives p.val a →
    pos = (s.position p.val).atArrival a →
      (pos.requested = .lineLoop → exec (.downstreamArrival p a) s = .next (s.afterDown p.val a pos)) ∧
      (pos.requested = .switchLoop →
        exec (.downstreamArrival p a) s = .next (s.afterDown p.val a { pos with switchWaiting := arrivalCode a })) ∧
      (pos.requested.isLoop = false → pos.owner = none → pos.pending ≠ none →
        exec (.downstreamArrival p a) s =
          .next (s.afterDown p.val a { pos with lineWaiting := s.roleCode s.settings.challengeTone })) ∧
      (pos.requested.isLoop = false →
        (pos.owner = none ∧ pos.pending = none) ∨ (pos.owner ≠ none ∧ s.noCallAt p.val ∧ pos.requested = .mute) →
          exec (.downstreamArrival p a) s = .next (s.afterDown p.val a { pos with lineWaiting := 255 })) ∧
      (pos.requested = .tone → pos.owner ≠ none → s.noCallAt p.val →
        exec (.downstreamArrival p a) s =
          .next (s.afterDown p.val a { pos with lineWaiting := s.channelCode pos.toneChannel })) ∧
      (pos.requested = .clear → pos.owner ≠ none → s.noCallAt p.val →
        exec (.downstreamArrival p a) s =
          .next
            (s.afterDown p.val a
              { pos with
                lineWaiting := gainCode pos.downGain (arrivalCode a)
                downClamps :=
                  if gainClamps pos.downGain (arrivalCode a) then min 65535 (pos.downClamps + 1) else pos.downClamps }))) ∧
  (∀ (s : State) (c : Nat),
    ((s.channel c).status = .running → (s.channel c).mode = .advance →
      s.channelCode c = s.pattern.read (s.channel c).position) ∧
    ((s.channel c).status = .running → (s.channel c).mode = .fixed →
      s.channelCode c = s.pattern.read (s.channel c).start) ∧
    ((s.channel c).status ≠ .running → s.channelCode c = 255) ∧
    s.roleCode none = 255 ∧ s.roleCode (some c) = s.channelCode c) ∧
  (∀ (p : Fin 480) (code : Byte) (s u : State), s.pulsed → p.val ∉ s.boundary.suppliedUp →
    p.val ∉ s.boundary.suppliedDown →
      (∀ (c : Fin 16) rest, s.boundary.playoutDue = c.val :: rest → exec (.playoutAdvance c) s = .next u →
        exec (.downstreamArrival p (.carried code)) s = exec (.downstreamArrival p (.carried code)) u) ∧
      (s.boundary.playoutDue = [] → exec .reportSend s = .next u →
        exec (.downstreamArrival p (.carried code)) s = exec (.downstreamArrival p (.carried code)) u))

/-- The upstream arrival of a position in a scrambled call: the clear input is the code through the up gain, or 255 without
gain under requested MUTE; the switch gets a byte of the burst in the first eight frames of each Sync Span, the clear
input plus the keystream byte of the tx key and frame number in every other (R23, R45, R131, R136 to R138).

An arrival that the highway carried comes after the transmit advance of the boundary that began its frame, so that each
number serves one clear input; one that a cut-short frame is owed comes before it, with the number of its own frame
(R2, R34, R131). That both slots of its position have been driven, and the order, are assumptions 5 and 18. -/
def Obligations.UpstreamInCall : Prop :=
  (∀ (p : Fin 480) (a : Arrival) (s : State) (pos : Position) (j : Nat) (call : Call) (clear sent : Byte) (k : Nat),
    s.pulsed → s.upArrives p.val a → (a ≠ .supplied → j ∉ s.boundary.txDue) → s.inCall p.val j call →
      pos = (s.position p.val).atArrival a →
      (pos.requested = .mute → clear = 255) → (pos.requested ≠ .mute → clear = gainCode pos.upGain (arrivalCode a)) →
        k = (s.context j).txFrame.toNat % s.settings.syncSpan →
          (k < 8 →
            (burstBytes ((s.context j).txFrame - BitVec.ofNat 24 k) (s.context j).txGeneration)[k]? = some sent) →
            (8 ≤ k → sent = clear + keystream call.txKey (s.context j).txFrame) →
              exec (.upstreamArrival p a) s =
                .next
                  (s.afterUp p.val a
                    { pos with
                      switchWaiting := sent
                      upClamps :=
                        if pos.requested ≠ .mute ∧ gainClamps pos.upGain (arrivalCode a) = true then min 65535 (pos.upClamps + 1)
                        else pos.upClamps })) ∧
  ∀ (p : Fin 480) (j : Fin 256) (code : Byte) (s u : State) (call : Call), s.pulsed → p.val ∉ s.boundary.suppliedUp →
    p.val ∉ s.boundary.suppliedDown → s.inCall p.val j.val call → s.boundary.txDue.Nodup →
      exec (.txFrameAdvance j) s = .next u →
        exec (.upstreamArrival p (.carried code)) s = exec (.upstreamArrival p (.carried code)) u

/-- What a downstream arrival in a scrambled call releases to the line: the hold sample while the window holds fewer than
eight codes or its oldest is a burst byte; the Securing or Key-Miss Tone in HUNT or KEY-WAIT; else the oldest code
descrambled with the rx key at its number, eight below the arrival's, through the down gain, which becomes the hold
sample. The requested treatment then shapes it (R20, R24, R46, R48, R142 to R144). A carried arrival finds both slots of its
position driven, and one that a cut-short frame is owed finds them as they stand (R2, R34; assumptions 5 and 18). -/
def Obligations.DownstreamReleasesOldest : Prop :=
  ∀ (p : Fin 480) (a : Arrival) (s : State) (pos : Position) (j : Nat) (call : Call) (clear : Byte) (r : Released),
    s.pulsed → s.downArrives p.val a → s.inCall p.val j call → pos = (s.position p.val).atArrival a →
      ((s.context j).window.length < 8 → r = ⟨pos.hold, pos.hold, false⟩) →
        (∀ w rest, (s.context j).window = w :: rest → 8 ≤ (s.context j).window.length →
          (w.isBurst = true → r = ⟨pos.hold, pos.hold, false⟩) ∧
          (w.isBurst = false → (s.context j).sync = .hunt →
            r = ⟨s.roleCode s.settings.securingTone, pos.hold, false⟩) ∧
          (w.isBurst = false → (s.context j).sync = .keyWait →
            r = ⟨s.roleCode s.settings.keyMissTone, pos.hold, false⟩) ∧
          (w.isBurst = false → (s.context j).sync = .aligned ∨ (s.context j).sync = .freewheel →
            clear = w.code - keystream call.rxKey ((s.context j).rxFrame + 1 - 8) ∧
              r = ⟨gainCode pos.downGain clear, gainCode pos.downGain clear, gainClamps pos.downGain clear⟩)) →
          ∃ t line taken, exec (.downstreamArrival p a) s = .next t ∧ ReceiveFrame s t p.val j ∧
            (pos.requested = .clear → line = r.code) ∧ (pos.requested = .mute → line = 255) ∧
            (pos.requested = .tone → line = s.channelCode pos.toneChannel) ∧
            (a = .supplied → taken = pos.downTaken) ∧ (a ≠ .supplied → taken = true) ∧
            t.position p.val =
              { pos with
                hold := r.hold, lineWaiting := line, downTaken := taken
                downClamps := if r.clamped then min 65535 (pos.downClamps + 1) else pos.downClamps } ∧
            (a = .supplied →
              t.boundary = { s.boundary with suppliedDown := s.boundary.suppliedDown.erase p.val }) ∧
            (a ≠ .supplied → t.boundary = s.boundary)

/-- A downstream arrival whose window holds no valid burst: outside HUNT it is numbered, the input joins the window
unmarked, and at an expected place it counts as a miss, which leads to FREEWHEEL below the Miss Limit and to HUNT with
SYNC LOST at it (R141 to R143, R148, R152). -/
def Obligations.ReceiveWithoutBurst : Prop :=
  ∀ (p : Fin 480) (a : Arrival) (s : State) (j : Nat) (call : Call) (c : Context), s.pulsed → s.downArrives p.val a →
    s.inCall p.val j call → c = (s.context j).appended (s.inputCode p.val j a) →
      findBurst s.settings.syncSpan c.window = none →
        ∃ t, exec (.downstreamArrival p a) s = .next t ∧ ReceiveFrame s t p.val j ∧
          (c.sync = .hunt ∨ c.rxFrame.toNat % s.settings.syncSpan ≠ 7 → t.context j = c ∧ SameReports t s) ∧
          (c.sync ≠ .hunt → c.rxFrame.toNat % s.settings.syncSpan = 7 → c.misses + 1 < s.settings.missLimit →
            t.context j =
                { c with misses := c.misses + 1, sync := if c.sync = .aligned then .freewheel else c.sync } ∧
              SameReports t s) ∧
          (c.sync ≠ .hunt → c.rxFrame.toNat % s.settings.syncSpan = 7 → s.settings.missLimit ≤ c.misses + 1 →
            t.context j = { c with misses := c.misses + 1, sync := .hunt } ∧
              SameReports t (s.report (.syncLost j call.position (c.misses + 1))))

/-- A downstream arrival whose window holds a valid burst: it is numbered n0 + 7, all marks are set and the misses are 0;
SYNC ALIGNED from HUNT, a counted SLIP from ALIGNED away from the expected place; then the generation check, with the
receive commit of a staged key one generation on, or KEY-WAIT with KEY MISS (R125, R146, R147, R149, R150). -/
def Obligations.ReceiveWithBurst : Prop :=
  ∀ (p : Fin 480) (a : Arrival) (s u : State) (j : Nat) (call : Call) (c r : Context) (b : FoundBurst) (slips : Nat)
    (confirmed : Bool), s.pulsed → s.downArrives p.val a → s.inCall p.val j call →
      c = (s.context j).appended (s.inputCode p.val j a) → findBurst s.settings.syncSpan c.window = some b →
        (confirmed = true ↔ c.rxFrame.toNat % s.settings.syncSpan = 7 ∧ b.n0 = c.rxFrame - 7) →
          slips = (if c.sync = .aligned ∧ confirmed = false then min 255 (c.slips + 1) else c.slips) →
            (c.sync = .hunt → u = s.report (.syncAligned j call.position (b.n0 + 7) b.generation)) →
              (c.sync = .aligned → confirmed = false → u = s.report (.slip j c.rxFrame b.n0 slips)) →
                (c.sync = .freewheel ∨ c.sync = .keyWait ∨ (c.sync = .aligned ∧ confirmed = true) → u = s) →
                  r = { c with
                        rxFrame := b.n0 + 7, misses := 0, slips := slips
                        window := c.window.map (fun w => ⟨w.code, true⟩) } →
                    ∃ t, exec (.downstreamArrival p a) s = .next t ∧ ReceiveFrame s t p.val j ∧
                      (b.generation = c.rxGeneration →
                        t.context j = { r with sync := .aligned } ∧ SameReports t u) ∧
                      (∀ key, b.generation = c.rxGeneration + 1 →
                        (c.staged = some ⟨key, false, false⟩ →
                          t.context j =
                              { r with
                                sync := .aligned, rxGeneration := b.generation, staged := some ⟨key, false, true⟩
                                call := some ⟨call.position, call.entry, call.txKey, key⟩ } ∧
                            SameReports t (u.report (.rxRekeyed j call.position b.generation (b.n0 + 7)))) ∧
                        (c.staged = some ⟨key, true, false⟩ →
                          t.context j =
                              { r with
                                sync := .aligned, rxGeneration := b.generation, staged := none
                                call := some ⟨call.position, call.entry, call.txKey, key⟩ } ∧
                            SameReports t
                              ((u.report (.rxRekeyed j call.position b.generation (b.n0 + 7))).report
                                (.stagedTaken j call.position b.generation)))) ∧
                      ∀ cause : KeyMissCause, b.generation ≠ c.rxGeneration →
                        (b.generation = c.rxGeneration + 1 → cause = .noKey) →
                          (b.generation ≠ c.rxGeneration + 1 → cause = .skipped) →
                            (b.generation = c.rxGeneration + 1 → ∀ k, c.staged = some k → k.rxTaken = true) →
                              t.context j = { r with sync := .keyWait } ∧
                                SameReports t
                                  (if c.sync = .keyWait then u
                                   else u.report (.keyMiss j call.position cause b.generation c.rxGeneration))

/-- SET POSITION TREATMENT: the checks after the position, in order; an accepted cell writes the treatment and the tone
channel, and a position without an owner that leaves SWITCH LOOP holds 255 for the switch (R36, R49).

SET POSITION GAIN: a position above 479 is refused BAD INDEX and a direction that is none of the three BAD VALUE; a
value above 512 is applied as 512, the gains the direction names take it, both clamp counts become 0, and ACCEPTED
carries it (R50). -/
def Obligations.PositionCellsAreWritten : Prop :=
  (∀ (tag : Byte) (p code tone : Nat) (s : State), s.inFrame → p ≤ 479 →
    (4 < code ∨ 15 < tone →
      exec (.setPositionTreatment tag p code tone) s = .next (s.refused tag 12 .badValue)) ∧
    (3 ≤ code → code ≤ 4 → tone ≤ 15 → ¬ s.noCallAt p →
      exec (.setPositionTreatment tag p code tone) s = .next (s.refused tag 12 .inCall)) ∧
    ∀ treatment : Treatment, (code, treatment) ∈
        [(0, Treatment.clear), (1, .mute), (2, .tone), (3, .lineLoop), (4, .switchLoop)] →
      tone ≤ 15 → (code ≤ 2 ∨ s.noCallAt p) →
        exec (.setPositionTreatment tag p code tone) s =
          .next
            ((s.accepted tag (.setPositionTreatment p)).setPosition p
              { s.position p with
                requested := treatment, toneChannel := tone
                switchWaiting :=
                  if (s.position p).requested = .switchLoop ∧ code ≠ 4 ∧ (s.position p).owner = none then 255
                  else (s.position p).switchWaiting })) ∧
  (∀ (tag : Byte) (p code value gain : Nat) (s : State), s.inFrame → (value ≤ 512 → gain = value) →
    (512 < value → gain = 512) →
      (479 < p → exec (.setPositionGain tag p code value) s = .next (s.refused tag 13 .badIndex)) ∧
      (p ≤ 479 → code = 0 ∨ 3 < code →
        exec (.setPositionGain tag p code value) s = .next (s.refused tag 13 .badValue)) ∧
      (p ≤ 479 → code = 1 →
        exec (.setPositionGain tag p code value) s =
          .next
            ((s.accepted tag (.setPositionGain p .up gain)).setPosition p
              { s.position p with upGain := gain, upClamps := 0, downClamps := 0 })) ∧
      (p ≤ 479 → code = 2 →
        exec (.setPositionGain tag p code value) s =
          .next
            ((s.accepted tag (.setPositionGain p .down gain)).setPosition p
              { s.position p with downGain := gain, upClamps := 0, downClamps := 0 })) ∧
      (p ≤ 479 → code = 3 →
        exec (.setPositionGain tag p code value) s =
          .next
            ((s.accepted tag (.setPositionGain p .both gain)).setPosition p
              { s.position p with upGain := gain, downGain := gain, upClamps := 0, downClamps := 0 })))

/-! ### Playout (R155 to R162) -/

/-- LOAD PATTERN: an address above 8188 is refused BAD INDEX; otherwise the four codes stand at the address and the three
after it, every other address and everything else is as it was, and ACCEPTED carries the address (R156).

SET PLAYOUT: the checks in order; an accepted cell starts the channel whatever its status, at its start, with the
length held within 1 and the end of Pattern Memory, a repeat count of 0 endless, and ACCEPTED carries the applied length
(R158).

STOP PLAYOUT: a channel above 15 is refused BAD INDEX; otherwise ACCEPTED carries the status before, a RUNNING channel
becomes STOPPED, and a STOPPED or COUNT DONE one stays as it is; no other field changes (R159). -/
def Obligations.PlayoutCellsAreApplied : Prop :=
  (∀ (tag : Byte) (address : Nat) (c0 c1 c2 c3 : Byte) (s : State), s.inFrame →
    (8188 < address → exec (.loadPattern tag address c0 c1 c2 c3) s = .next (s.refused tag 14 .badIndex)) ∧
    (address ≤ 8188 →
      ∃ t, exec (.loadPattern tag address c0 c1 c2 c3) s = .next t ∧
        t = { s.accepted tag (.loadPattern address) with pattern := t.pattern } ∧
        t.pattern.read address = c0 ∧ t.pattern.read (address + 1) = c1 ∧ t.pattern.read (address + 2) = c2 ∧
        t.pattern.read (address + 3) = c3 ∧
        (∀ a, a < address ∨ address + 3 < a → t.pattern.read a = s.pattern.read a) ∧
        (s.pattern.wf = true → t.pattern.wf = true))) ∧
  (∀ (tag : Byte) (c repeats code start length : Nat) (s : State), s.inFrame →
    (15 < c → exec (.setPlayout tag c repeats code start length) s = .next (s.refused tag 15 .badIndex)) ∧
    (c ≤ 15 → 8191 < start ∨ 1 < code →
      exec (.setPlayout tag c repeats code start length) s = .next (s.refused tag 15 .badValue)) ∧
    ∀ (mode : PlayoutMode) (applied : Nat) (left : Repeats), c ≤ 15 → start ≤ 8191 → code ≤ 1 →
      (code = 0 → mode = .advance) → (code = 1 → mode = .fixed) →
        (length = 0 → applied = 1) → (8192 - start < length → applied = 8192 - start) →
          (1 ≤ length → length ≤ 8192 - start → applied = length) →
            (repeats = 0 → left = .endless) → (repeats ≠ 0 → left = .count repeats) →
              exec (.setPlayout tag c repeats code start length) s =
                .next
                  ((s.accepted tag (.setPlayout c applied)).setChannel c
                    { start := start, length := applied, position := start, repeats := left, mode := mode
                      status := .running })) ∧
  (∀ (tag : Byte) (c : Nat) (s : State), s.wf = true → s.inFrame →
    (15 < c → exec (.stopPlayout tag c) s = .next (s.refused tag 16 .badIndex)) ∧
    (c ≤ 15 → (s.channel c).status = .running →
      exec (.stopPlayout tag c) s =
        .next ((s.accepted tag (.stopPlayout c .running)).setChannel c { s.channel c with status := .stopped })) ∧
    (c ≤ 15 → (s.channel c).status ≠ .running →
      exec (.stopPlayout tag c) s = .next (s.accepted tag (.stopPlayout c (s.channel c).status))))

/-- At each boundary a RUNNING channel moves on by one, or past the end of its stretch back to its start with one repeat
fewer, and at the last it is COUNT DONE with PLAYOUT DONE queued; other channels stand still; once at each boundary
(R160; assumption 2). -/
def Obligations.PlayoutAdvances : Prop :=
  ∀ (c : Fin 16) (s u : State), s.pulsed →
    u = { s with boundary := { s.boundary with playoutDue := s.boundary.playoutDue.erase c.val } } →
      (c.val ∉ s.boundary.playoutDue → exec (.playoutAdvance c) s = .next s) ∧
      (c.val ∈ s.boundary.playoutDue →
        ((s.channel c.val).status ≠ .running → exec (.playoutAdvance c) s = .next u) ∧
        ((s.channel c.val).status = .running →
          ((s.channel c.val).position < (s.channel c.val).start + (s.channel c.val).length - 1 →
            exec (.playoutAdvance c) s =
              .next (u.setChannel c.val { s.channel c.val with position := (s.channel c.val).position + 1 })) ∧
          ((s.channel c.val).start + (s.channel c.val).length - 1 ≤ (s.channel c.val).position →
            ((s.channel c.val).repeats = .endless →
              exec (.playoutAdvance c) s =
                .next (u.setChannel c.val { s.channel c.val with position := (s.channel c.val).start })) ∧
            (∀ n, (s.channel c.val).repeats = .count (n + 2) →
              exec (.playoutAdvance c) s =
                .next
                  (u.setChannel c.val
                    { s.channel c.val with position := (s.channel c.val).start, repeats := .count (n + 1) })) ∧
            ((s.channel c.val).repeats = .count 1 →
              exec (.playoutAdvance c) s =
                .next
                  ((u.setChannel c.val
                      { s.channel c.val with
                        position := (s.channel c.val).start, repeats := .count 0, status := .countDone }).report
                    (.playoutDone c.val (s.channel c.val).start (s.channel c.val).length))))))

/-! ### Settings, READ and RESTART (R53, R74, R128, R166, R168 to R170, R177) -/

/-- SET DEVICE: the checks in order, the value each setting takes from the one carried, and ACCEPTED with the applied value
(R168). -/
def Obligations.SettingsAreWritten : Prop :=
  ∀ (tag : Byte) (value : Nat) (s : State), s.inFrame →
    (∀ n, n = 0 ∨ (8 < n ∧ n < 17) ∨ 36 < n →
      exec (.setDevice tag n value) s = .next (s.refused tag 17 .badValue)) ∧
    (s.openContexts ≠ [] →
      exec (.setDevice tag 1 value) s = .next (s.refused tag 17 .inUse) ∧
        exec (.setDevice tag 2 value) s = .next (s.refused tag 17 .inUse)) ∧
    (s.openContexts = [] →
      (value ∈ [256, 512, 1024, 2048, 4096, 8192] →
        exec (.setDevice tag 1 value) s =
          .next ({ s with settings := { s.settings with syncSpan := value } }.accepted tag (.setDevice 1 value))) ∧
      (value ∉ [256, 512, 1024, 2048, 4096, 8192] →
        exec (.setDevice tag 1 value) s = .next (s.refused tag 17 .badValue)) ∧
      exec (.setDevice tag 2 value) s =
        .next
          ({ s with settings := { s.settings with rekeyMultiple := min 255 value } }.accepted tag
            (.setDevice 2 (min 255 value)))) ∧
    exec (.setDevice tag 3 value) s =
      .next
        ({ s with settings := { s.settings with missLimit := max 1 (min 7 value) } }.accepted tag
          (.setDevice 3 (max 1 (min 7 value)))) ∧
    exec (.setDevice tag 4 value) s =
      .next
        ({ s with settings := { s.settings with answerWindow := max 800 (min 65535 value) } }.accepted tag
          (.setDevice 4 (max 800 (min 65535 value)))) ∧
    exec (.setDevice tag 5 value) s =
      .next
        ({ s with settings := { s.settings with baseHoldOff := max 8 (min 4096 value) } }.accepted tag
          (.setDevice 5 (max 8 (min 4096 value)))) ∧
    (∀ role, (value ≤ 15 ∧ role = some value) ∨ (value = 65535 ∧ role = none) →
      exec (.setDevice tag 6 value) s =
          .next ({ s with settings := { s.settings with challengeTone := role } }.accepted tag (.setDevice 6 value)) ∧
        exec (.setDevice tag 7 value) s =
          .next ({ s with settings := { s.settings with securingTone := role } }.accepted tag (.setDevice 7 value)) ∧
        exec (.setDevice tag 8 value) s =
          .next ({ s with settings := { s.settings with keyMissTone := role } }.accepted tag (.setDevice 8 value))) ∧
    (∀ n, 6 ≤ n → n ≤ 8 → 15 < value → value ≠ 65535 →
      exec (.setDevice tag n value) s = .next (s.refused tag 17 .badValue)) ∧
    ∀ kind : ReportKind, ∃ t, exec (.setDevice tag (17 + kind.place.val) value) s = .next t ∧
      (∀ other : ReportKind, t.settings.levels[other.place] =
        if other = kind then min 7 value else s.settings.levels[other.place]) ∧
      t =
        { s.accepted tag (.setDevice (17 + kind.place.val) (min 7 value)) with
          settings := { s.settings with levels := t.settings.levels } }

/-- READ: a page kind that is none of the nine is refused BAD VALUE, an index beyond the page BAD INDEX, a part the page
does not have BAD VALUE; a READ that passes leaves everything but the answer as it was, and its answer is six bytes
(R169). The counter of free bytes is the model's own (assumption 9). -/
def Obligations.ReadIsChecked : Prop :=
  ∀ (tag : Byte) (kind index part size parts : Nat) (s : State), s.inFrame →
    (kind = 0 ∨ 9 < kind → exec (.read tag kind index part) s = .next (s.refused tag 18 .badValue)) ∧
    ((kind, size, parts) ∈
        [(1, 1024, 3), (2, 1024, 2), (3, 480, 1), (4, 480, 2), (5, 256, 2), (6, 256, 2), (7, 16, 2), (8, 16, 2),
          (9, 1, 4)] →
      (size ≤ index → exec (.read tag kind index part) s = .next (s.refused tag 18 .badIndex)) ∧
      (index < size → parts ≤ part → exec (.read tag kind index part) s = .next (s.refused tag 18 .badValue)) ∧
      (index < size → part < parts →
        ∃ page n, page.length = 6 ∧
          exec (.read tag kind index part) s =
            .next { s.joinCell 0 (.answer tag page) with freeCount := s.freeCount + n }))

/-- What the pages of entries and positions show, byte by byte. A field that holds no value and for which the manual names
no byte shows some byte, of which nothing is said (R12, R174, R177; assumption 9).

What the pages of contexts, groups, playout channels and device counts show, byte by byte; open bytes as above
(R129, R174, R177; assumption 9).

The numbers of the enumerations that these pages show: each in the order in which the manual lists its values, from 0, and
the kinds of a candidate from 1 (R177). -/
def Obligations.ReadShowsThePages : Prop :=
  ((∀ x n, (x, n) ∈ [(EntryState.unloaded, 0), (.absent, 1), (.admitted, 2), (.barred, 3)] → x.code = n) ∧
    (∀ x n, (x, n) ∈ [(CandidateKind.first, 1), (.move, 2), (.renew, 3)] → x.code = n) ∧
    (∀ x n, (x, n) ∈ [(Treatment.clear, 0), (.mute, 1), (.tone, 2), (.lineLoop, 3), (.switchLoop, 4)] → x.code = n) ∧
    (∀ x n, (x, n) ∈ [(SyncState.hunt, 0), (.aligned, 1), (.freewheel, 2), (.keyWait, 3)] → x.code = n) ∧
    (∀ x n, (x, n) ∈ [(PlayoutMode.advance, 0), (.fixed, 1)] → x.code = n) ∧
    ∀ x n, (x, n) ∈ [(PlayoutStatus.stopped, 0), (.running, 1), (.countDone, 2)] → x.code = n) ∧
  (∀ (tag : Byte) (s : State), s.inFrame →
    (∀ e, e ≤ 1023 →
      exec (.read tag 1 e 0) s =
          .next
            (s.joinCell 0 (.answer tag
              (field1 (s.entry e).state.code ++ field1 (if (s.entry e).secret = none then 0 else 1) ++
                field4 (s.entry e).identity))) ∧
        (∃ b t, exec (.read tag 1 e 1) s = .next t ∧ SameReports t
            (s.joinCell 0 (.answer tag
              (field2 ((s.entry e).home.getD 65535) ++ field1 ((s.entry e).context.getD b) ++
                field1 (if (s.entry e).context = none then 0 else 1) ++ field1 (s.entry e).group ++
                field1 (s.entry e).failures)))) ∧
        exec (.read tag 1 e 2) s =
          .next
            (s.joinCell 0 (.answer tag
              (field2 (((s.entry e).refresh.map (fun d => (d - s.secondCount).toNat)).getD 0) ++
                field2 (((s.entry e).rechallenge.map (fun d => (d - s.secondCount).toNat)).getD 0) ++ [0, 0]))) ∧
        (∀ c, (s.entry e).candidate = some c →
          exec (.read tag 2 e 0) s =
              .next
                (s.joinCell 0 (.answer tag
                  (field1 c.kind.code ++ field1 (if c.stage = .queued then 1 else 0) ++ field2 c.position ++
                    field2 ((c.stage.deadline.map (fun d => (d - s.frameCount).toNat)).getD 0)))) ∧
            exec (.read tag 2 e 1) s =
              .next (s.joinCell 0 (.answer tag (field3 c.challenge.toNat ++ [0, 0, 0])))) ∧
        ((s.entry e).candidate = none →
          ∃ b t, exec (.read tag 2 e 0) s = .next t ∧ SameReports t
            (s.joinCell 0 (.answer tag ([0, b] ++ field2 65535 ++ [0, 0]))))) ∧
    ∀ p, p ≤ 479 →
      exec (.read tag 3 p 0) s =
          .next
            (s.joinCell 0 (.answer tag
              (field1 (s.position p).requested.code ++ field1 (s.position p).toneChannel ++
                field2 (s.position p).upGain ++ field2 (s.position p).downGain))) ∧
        (∃ b t, exec (.read tag 4 p 0) s = .next t ∧ SameReports t
            (s.joinCell 0 (.answer tag
              (field2 ((s.position p).owner.getD 65535) ++ field2 ((s.position p).pending.getD 65535) ++
                field1 ((s.position p).context.getD b) ++
                field1 (if (s.position p).context = none then 0 else 1))))) ∧
        exec (.read tag 4 p 1) s =
          .next
            (s.joinCell 0 (.answer tag
              (field1 (s.position p).attempts ++ [0] ++ field2 (s.position p).upClamps ++
                field2 (s.position p).downClamps)))) ∧
  (∀ (tag : Byte) (s : State), s.inFrame →
    (∀ j, j ≤ 255 →
      exec (.read tag 5 j 0) s =
          .next
            (s.joinCell 0 (.answer tag
              (field1 (if (s.context j).call = none then 0 else 1) ++ field1 (if (s.context j).loop then 1 else 0) ++
                field2 (((s.context j).call.map Call.position).getD 65535) ++
                field2 (((s.context j).call.map Call.entry).getD 65535)))) ∧
        (∀ shown, (s.context j).shownStaged shown →
          exec (.read tag 5 j 1) s =
            .next
              (s.joinCell 0 (.answer tag
                (field3 (s.context j).txFrame.toNat ++ field1 (s.context j).txGeneration.toNat ++
                  field1 (if (s.context j).skipReported then 1 else 0) ++ field1 shown)))) ∧
        exec (.read tag 6 j 0) s =
          .next
            (s.joinCell 0 (.answer tag
              (field1 (s.context j).sync.code ++ field1 (s.context j).rxGeneration.toNat ++
                field1 (s.context j).misses ++ field1 (s.context j).slips ++
                field1 (s.context j).window.length ++ [0]))) ∧
        ((s.context j).sync ≠ .hunt →
          exec (.read tag 6 j 1) s =
            .next (s.joinCell 0 (.answer tag (field3 (s.context j).rxFrame.toNat ++ [1, 0, 0])))) ∧
        ((s.context j).sync = .hunt →
          ∃ b0 b1 b2 t, exec (.read tag 6 j 1) s = .next t ∧
            SameReports t (s.joinCell 0 (.answer tag [b0, b1, b2, 0, 0, 0])))) ∧
    (∀ g, g ≤ 15 →
      exec (.read tag 7 g 0) s =
          .next
            (s.joinCell 0 (.answer tag
              (field2 (s.group g).budget ++ field2 (s.group g).inUse ++ field1 (s.group g).failureLimit ++ [0]))) ∧
        exec (.read tag 7 g 1) s =
          .next
            (s.joinCell 0 (.answer tag
              (field2 (s.group g).refresh ++ field2 (s.group g).rechallenge ++ [0, 0])))) ∧
    (∀ c, c ≤ 15 →
      exec (.read tag 8 c 0) s =
          .next
            (s.joinCell 0 (.answer tag
              (field2 (s.channel c).start ++ field2 (s.channel c).length ++ field2 (s.channel c).position))) ∧
        (∀ n, (s.channel c).repeats = .count n →
          exec (.read tag 8 c 1) s =
            .next
              (s.joinCell 0 (.answer tag
                (field1 n ++ [0] ++ field1 (s.channel c).mode.code ++ field1 (s.channel c).status.code ++ [0, 0])))) ∧
        ((s.channel c).repeats = .endless →
          ∃ b t, exec (.read tag 8 c 1) s = .next t ∧ SameReports t
            (s.joinCell 0 (.answer tag
              ([b, 1] ++ field1 (s.channel c).mode.code ++ field1 (s.channel c).status.code ++ [0, 0]))))) ∧
    exec (.read tag 9 0 0) s =
        .next
          (s.joinCell 0 (.answer tag
            (field3 s.frameCount.toNat ++ field2 s.secondCount.toNat ++
              field1 ((if s.verifyPause then 1 else 0) + if s.reportPause then 2 else 0)))) ∧
      exec (.read tag 9 0 1) s =
        .next
          (s.joinCell 0 (.answer tag
            (field2 s.openContexts.length ++ field1 s.verifyQueue.length ++ field1 s.reportQueue.length ++
              field2 s.lostReports))) ∧
      exec (.read tag 9 0 2) s =
        .next
          (s.joinCell 0 (.answer tag
            (field1 (s.highway 0).queue.length ++ field1 (s.highway 1).queue.length ++
              field1 (s.highway 2).queue.length ++ field1 (s.highway 3).queue.length ++
              field2 (s.highway 0).drops))) ∧
      exec (.read tag 9 0 3) s =
        .next
          (s.joinCell 0 (.answer tag
            (field2 (s.highway 1).drops ++ field2 (s.highway 2).drops ++ field2 (s.highway 3).drops))))

/-- RESTART CALLS: every context FREE with its key, window and staged key gone and no CALL CLOSED, every in-use count 0, a
half of a staged key gone from the Pair Buffer; RESTARTED with the number of contexts closed, then ACCEPTED; a scope that
is neither CALLS nor ALL is refused BAD VALUE (R128, R166, R170; the row of the refusal is assumption 7).

RESTART ALL: besides what RESTART CALLS does, every admission, candidate, deadline and hold-off is gone and every
failure and attempt count 0, positions without a switch loop hold 255 for the switch, the items in flight are void, the
Verification Queue, the Line Reply Queues, the Pair Buffer and the Report Queue are emptied and both pauses clear; then
RESTARTED and ACCEPTED are queued (R31, R33, R36, R53, R74, R93, R94, R166, R170, R173). -/
def Obligations.RestartsClearCallsAndAdmissions : Prop :=
  (∀ (tag : Byte) (s : State), s.wf = true → s.inFrame →
    (∀ scope, scope ≠ 1 → scope ≠ 2 →
      exec (.restartCalls tag scope) s = .next (s.refused tag 19 .badValue)) ∧
    ∃ t, exec (.restartCalls tag 1) s = .next t ∧
      (∀ j, t.context j = { s.context j with call := none, window := [], staged := none }) ∧
      (∀ p, t.position p = { s.position p with context := none }) ∧
      (∀ e, t.entry e = { s.entry e with context := none }) ∧ (∀ g, t.group g = { s.group g with inUse := 0 }) ∧
      t.reserved = [] ∧
      (∀ j half a b, s.pairBuffer = some ⟨.stagedKey j, half, a, b⟩ → t.pairBuffer = none) ∧
      (∀ e half a b, s.pairBuffer = some ⟨.secret e, half, a, b⟩ → t.pairBuffer = s.pairBuffer) ∧
      (s.pairBuffer = none → t.pairBuffer = none) ∧
      SameReports t ((s.report (.restarted .calls s.openContexts.length)).accepted tag (.restart .calls)) ∧
      t =
        { s with
          contexts := t.contexts, positions := t.positions, entries := t.entries, groups := t.groups
          reserved := t.reserved, pairBuffer := t.pairBuffer, reportQueue := t.reportQueue
          reportPause := t.reportPause, lostReports := t.lostReports }) ∧
  (∀ (tag : Byte) (s : State), s.wf = true → s.inFrame →
    ∃ t, exec (.restartAll tag) s = .next t ∧
      (∀ j, t.context j = { s.context j with call := none, window := [], staged := none }) ∧
      (∀ p, t.position p =
        { s.position p with
          owner := none, pending := none, context := none, attempts := 0, holdOff := none
          switchWaiting := (s.position p).silenced }) ∧
      (∀ e, t.entry e =
        { s.entry e with
          state := if (s.entry e).state = .admitted then .absent else (s.entry e).state
          home := none, candidate := none, refresh := none, rechallenge := none, failures := 0, context := none }) ∧
      (∀ g, t.group g = { s.group g with inUse := 0 }) ∧
      (∀ h, t.highway h = { s.highway h with queue := [] }) ∧ t.reserved = [] ∧ t.pairBuffer = none ∧
      t.verifyQueue = [] ∧ t.verifyPause = false ∧
      t.inFlight = s.inFlight.map (fun f => { f with item := { f.item with isVoid := true } }) ∧
      t.completing = s.completing.map (fun f => { f with item := { f.item with isVoid := true } }) ∧
      SameReports t
        (({ s with reportQueue := [], reportPause := false }.report
            (.restarted .all s.openContexts.length)).accepted tag (.restart .all)) ∧
      t =
        { s with
          contexts := t.contexts, positions := t.positions, entries := t.entries, groups := t.groups
          highways := t.highways, reserved := [], pairBuffer := none, verifyQueue := [], verifyPause := false
          inFlight := t.inFlight, completing := t.completing, reportQueue := t.reportQueue
          reportPause := t.reportPause, lostReports := t.lostReports })

/-- No READ tells anything of a key: two states in which the boundary has nothing left to bring about (assumption 2), and
which differ only in the words of secrets, call keys and staged keys and in the Pair Buffer, give the same answer to every
READ (R52, R169). -/
def Obligations.ReadTellsNothingOfKeys : Prop :=
  ∀ (tag : Byte) (kind index part : Nat) (s u s' u' : State), s.wf = true → u.wf = true → s.quiet → SameButKeys s u →
    exec (.read tag kind index part) s = .next s' → exec (.read tag kind index part) u = .next u' →
      SameReports s' u' ∧ s'.freeCount = u'.freeCount

/-! ### Cells as bytes (R164, R174, R176) -/

/-- Every well-formed management cell and line cell is read back from the eight bytes that encode it, and every eight
bytes are read as one well-formed cell (R164, R174, R176; which command a cell is called is assumptions 7, 10 and
12). -/
def Obligations.CellsDecodeBack : Prop :=
  (∀ (i : Instr) (bytes : List Byte), i.wellFormed = true → (∀ tag kind, i ≠ .unknownKind tag kind) →
    encodeManagementCell i = some bytes → bytes.length = 8 ∧ decodeManagementCell bytes = some i) ∧
    (∀ (tag : Byte) (kind : Nat) (bytes : List Byte), 19 < kind → kind < 256 →
      encodeManagementCell (.unknownKind tag kind) = some bytes →
        decodeManagementCell bytes = some (.unknownKind tag kind)) ∧
    (∀ (i : Instr) (h : Fin 4) (bytes : List Byte), i.wellFormed = true → encodeLineCell i = some (h, bytes) →
      bytes.length = 8 ∧ decodeLineCell h bytes = some i) ∧
    (∀ bytes : List Byte, bytes.length = 8 → ∃ i, decodeManagementCell bytes = some i ∧ i.wellFormed = true) ∧
    ∀ (h : Fin 4) (bytes : List Byte), bytes.length = 8 →
      ∃ i, decodeLineCell h bytes = some i ∧ i.wellFormed = true

/-! ### What every step keeps -/

/-- The part after reset satisfies every law below, so that each of them holds of a machine that has just started. -/
def Obligations.ResetSatisfiesTheLaws : Prop :=
  State.reset.wf = true ∧ State.reset.bounded ∧ State.reset.pausesAtMarks ∧ State.reset.silent ∧
    State.reset.keysAgree ∧ State.reset.agrees

/-- Every step keeps every field in the range the manual gives it, every table in its canonical form, and Pattern Memory
with them (R8, R9, R32, R52, R65, R73, R92, R114, R148, R157, R168, R171). -/
def Obligations.EveryStepKeepsRanges : Prop :=
  ∀ s t : State, s.wf = true → step s = .next t → t.wf = true

/-- Every step keeps the queues within their capacities and the Mixing Unit within 520 outputs a frame: two for each
context of the reservation and four for each verification started (R27, R28, R92, R172).

Every step keeps the two pauses at their marks: set at 24 and 48, clear at 8 and 16 (R94, R173). -/
def Obligations.EveryStepKeepsQueueBounds : Prop :=
  (∀ s t : State, s.wf = true → s.bounded → step s = .next t → t.bounded) ∧
  (∀ s t : State, s.pausesAtMarks → step s = .next t → t.pausesAtMarks)

/-- Every step keeps a position with neither an owner nor SWITCH LOOP silent toward the switch, and such a position drives
its switch-side slot with 255 (R36). -/
def Obligations.EveryStepKeepsSilence : Prop :=
  ∀ s t : State, s.wf = true → s.silent → step s = .next t →
    t.silent ∧
      ∀ p : Nat, (s.position p).owner = none → (s.position p).requested ≠ .switchLoop →
        (s.position p).driveSwitch.switchDriven = true ∧
          ((s.position p).switchDriven = false → (s.position p).driveSwitch.switchSending = 255)

/-- Every step keeps the law of staged keys: never both marks, none on a FREE context, and the marks of an OPEN one say
which side stands one generation ahead (R117, R124, R125, R135). -/
def Obligations.EveryStepKeepsStagedKeys : Prop :=
  ∀ s t : State, s.wf = true → s.keysAgree → step s = .next t → t.keysAgree

/-- Every step keeps owners and homes naming each other, an admission's deadlines with its state, and a home present
exactly while its entry is ADMITTED (R54, R63, R112). -/
def Obligations.EveryStepKeepsAdmissions : Prop :=
  ∀ s t : State, s.wf = true → s.agrees → step s = .next t → t.homesAgree ∧ t.deadlinesAgree

/-- Every step keeps candidates and pending entries naming each other, each of a kind its entry's state allows
(R54, R75, R82).

Every step keeps each live verification item with its QUEUED candidate, and at most one live item for an entry
(R84, R92, R95). -/
def Obligations.EveryStepKeepsCandidates : Prop :=
  (∀ s t : State, s.wf = true → s.agrees → step s = .next t → t.candidatesAgree) ∧
  (∀ s t : State, s.wf = true → s.agrees → step s = .next t → t.itemsAgree)

/-- Every step keeps a context OPEN only while its entry is ADMITTED with the context's position as its home, the three
naming one another, and no looped position in a call (R38, R51, R114, R116).

Every step keeps each group's in-use count equal to the number of OPEN contexts of its entries and within its budget
(R66). -/
def Obligations.EveryStepKeepsCalls : Prop :=
  (∀ s t : State, s.wf = true → s.agrees → step s = .next t → t.callsAgree) ∧
  (∀ s t : State, s.wf = true → s.agrees → step s = .next t → t.budgetsAgree)

/-- Every step keeps the identities of the loaded entries distinct (R55, R57). -/
def Obligations.EveryStepKeepsIdentities : Prop :=
  ∀ s t : State, s.wf = true → s.agrees → step s = .next t → t.identitiesUnique

end Statements
end

