-- ==== Sys2Proof/Laws/Table.lean ====
section
/-! SUPPORT. The laws of the sparse tables: a read after a write, the canonical form kept by every operation, a canonical
table settled by what it reads as, and how a write changes a count of records. -/

namespace Sys2Proof.Machine

variable {α : Type}

@[simp] theorem Table.get_nil (d : α) (i : Nat) : Table.get d [] i = d := rfl

theorem Table.get_cons (d : α) (k : Nat) (v : α) (t : Table α) (i : Nat) :
    Table.get d ((k, v) :: t) i = if k = i then v else Table.get d t i := rfl

theorem Table.get_erase (d : α) (t : Table α) (i j : Nat) :
    Table.get d (Table.erase t i) j = if j = i then d else Table.get d t j := by
  induction t with
  | nil => simp [Table.erase]
  | cons x rest ih =>
    obtain ⟨k, v⟩ := x
    by_cases hk : k = i
    · subst hk
      have he : Table.erase ((k, v) :: rest) k = Table.erase rest k := by simp [Table.erase]
      rw [he, ih, Table.get_cons]
      by_cases hj : j = k
      · simp [hj]
      · simp [hj, Ne.symm hj]
    · have he : Table.erase ((k, v) :: rest) i = (k, v) :: Table.erase rest i := by simp [Table.erase, hk]
      rw [he, Table.get_cons, ih, Table.get_cons]
      by_cases hkj : k = j
      · subst hkj; simp [hk]
      · simp [hkj]

theorem Table.get_insert_other (d : α) (t : Table α) (i j : Nat) (v : α) (h : j ≠ i) :
    Table.get d (Table.insert t i v) j = Table.get d t j := by
  induction t with
  | nil => simp [Table.insert, Table.get_cons, Ne.symm h]
  | cons x rest ih =>
    obtain ⟨k, w⟩ := x
    unfold Table.insert
    split
    · simp [Table.get_cons, Ne.symm h]
    · simp [Table.get_cons, ih]

theorem Table.get_insert_self (d : α) (t : Table α) (i : Nat) (v : α) (h : ∀ e ∈ t, e.1 ≠ i) :
    Table.get d (Table.insert t i v) i = v := by
  induction t with
  | nil => simp [Table.insert, Table.get_cons]
  | cons x rest ih =>
    obtain ⟨k, w⟩ := x
    have hk : k ≠ i := h (k, w) (by simp)
    unfold Table.insert
    split
    · simp [Table.get_cons]
    · simpa [Table.get_cons, hk] using ih (fun e he => h e (by simp [he]))

theorem Table.mem_erase {t : Table α} {i : Nat} {e : Nat × α} : e ∈ Table.erase t i ↔ e ∈ t ∧ e.1 ≠ i := by
  simp [Table.erase]

/-- A read after a write gives the record written, and a write leaves every other record alone. -/
theorem Table.get_set [DecidableEq α] (d : α) (t : Table α) (i j : Nat) (v : α) :
    Table.get d (Table.set d t i v) j = if j = i then v else Table.get d t j := by
  unfold Table.set
  split
  · next h => rw [Table.get_erase, h]
  · by_cases hj : j = i
    · subst hj
      rw [Table.get_insert_self _ _ _ _ (fun e he => (Table.mem_erase.1 he).2)]
      simp
    · rw [Table.get_insert_other _ _ _ _ _ hj, Table.get_erase, if_neg hj, if_neg hj]

@[simp] theorem Table.get_set_self [DecidableEq α] (d : α) (t : Table α) (i : Nat) (v : α) :
    Table.get d (Table.set d t i v) i = v := by simp [Table.get_set]

theorem Table.get_set_other [DecidableEq α] (d : α) (t : Table α) {i j : Nat} (v : α) (h : j ≠ i) :
    Table.get d (Table.set d t i v) j = Table.get d t j := by simp [Table.get_set, h]

theorem Table.erase_insert (t : Table α) (i : Nat) (v : α) :
    Table.erase (Table.insert t i v) i = Table.erase t i := by
  induction t with
  | nil => simp [Table.insert, Table.erase]
  | cons x rest ih =>
    obtain ⟨k, w⟩ := x
    unfold Table.insert
    split
    · simp [Table.erase]
    · simp only [Table.erase, List.filter_cons] at ih ⊢
      rw [ih]

/-- Of two writes to one index, the second stands. -/
@[simp] theorem Table.set_set [DecidableEq α] (d : α) (t : Table α) (i : Nat) (v w : α) :
    Table.set d (Table.set d t i v) i w = Table.set d t i w := by
  have he : Table.erase (Table.set d t i v) i = Table.erase t i := by
    unfold Table.set
    split
    · simp [Table.erase]
    · rw [Table.erase_insert]; simp [Table.erase]
  unfold Table.set at he ⊢
  rw [he]

/-! ### Properties of every record -/

theorem Table.mem_insert {t : Table α} {i : Nat} {v : α} {e : Nat × α} :
    e ∈ Table.insert t i v ↔ e = (i, v) ∨ e ∈ t := by
  induction t with
  | nil => simp [Table.insert]
  | cons x rest ih =>
    obtain ⟨k, w⟩ := x
    unfold Table.insert
    split
    · simp
    · simp only [List.mem_cons, ih]; tauto

theorem Table.mem_set [DecidableEq α] {d : α} {t : Table α} {i : Nat} {v : α} {e : Nat × α}
    (h : e ∈ Table.set d t i v) : e = (i, v) ∨ (e ∈ t ∧ e.1 ≠ i) := by
  unfold Table.set at h
  split at h
  · exact .inr (Table.mem_erase.1 h)
  · rcases Table.mem_insert.1 h with h | h
    · exact .inl h
    · exact .inr (Table.mem_erase.1 h)

theorem Table.all_set [DecidableEq α] {d : α} {t : Table α} {i : Nat} {v : α} {P : α → Bool}
    (ht : t.all (fun x => P x.2) = true) (hv : P v = true) :
    (Table.set d t i v).all (fun x => P x.2) = true := by
  rw [List.all_eq_true] at *
  intro e he
  rcases Table.mem_set he with rfl | ⟨h, _⟩
  · exact hv
  · exact ht e h

theorem Table.all_get {d : α} {t : Table α} {P : α → Bool} (ht : t.all (fun x => P x.2) = true) (hd : P d = true)
    (i : Nat) : P (Table.get d t i) = true := by
  induction t with
  | nil => exact hd
  | cons x rest ih =>
    obtain ⟨k, v⟩ := x
    simp only [List.all_cons, Bool.and_eq_true] at ht
    rw [Table.get_cons]
    split
    · exact ht.1
    · exact ih ht.2

theorem Table.all_mapAll [DecidableEq α] {d : α} {t : Table α} {f : α → α} {P : α → Bool}
    (ht : t.all (fun x => P x.2) = true) (hf : ∀ v, P v = true → P (f v) = true) :
    (Table.mapAll d f t).all (fun x => P x.2) = true := by
  rw [List.all_eq_true] at *
  intro e he
  simp only [Table.mapAll, List.mem_filter, List.mem_map] at he
  obtain ⟨⟨x, hx, rfl⟩, _⟩ := he
  exact hf _ (ht x hx)

/-! ### The canonical form -/

theorem Table.wf_cons [DecidableEq α] {n : Nat} {d : α} {k : Nat} {v : α} {t : Table α} :
    Table.wf n d ((k, v) :: t) = true ↔ k < n ∧ v ≠ d ∧ (∀ e ∈ t, k < e.1) ∧ Table.wf n d t = true := by
  simp [Table.wf, and_assoc]

theorem Table.wf_bound [DecidableEq α] {n : Nat} {d : α} {t : Table α} (h : Table.wf n d t = true) :
    ∀ e ∈ t, e.1 < n ∧ e.2 ≠ d := by
  induction t with
  | nil => simp
  | cons x rest ih =>
    obtain ⟨k, v⟩ := x
    obtain ⟨h1, h2, -, h4⟩ := Table.wf_cons.1 h
    intro e he
    rcases List.mem_cons.1 he with rfl | he
    · exact ⟨h1, h2⟩
    · exact ih h4 e he

theorem Table.wf_filter [DecidableEq α] {n : Nat} {d : α} {t : Table α} (p : Nat × α → Bool)
    (h : Table.wf n d t = true) : Table.wf n d (t.filter p) = true := by
  induction t with
  | nil => rfl
  | cons x rest ih =>
    obtain ⟨k, v⟩ := x
    obtain ⟨h1, h2, h3, h4⟩ := Table.wf_cons.1 h
    rw [List.filter_cons]
    split
    · exact Table.wf_cons.2 ⟨h1, h2, fun e he => h3 e (List.mem_filter.1 he).1, ih h4⟩
    · exact ih h4

theorem Table.erase_wf [DecidableEq α] {n : Nat} {d : α} {t : Table α} (i : Nat) (h : Table.wf n d t = true) :
    Table.wf n d (Table.erase t i) = true := Table.wf_filter _ h

theorem Table.insert_wf [DecidableEq α] {n : Nat} {d : α} {t : Table α} {i : Nat} {v : α}
    (h : Table.wf n d t = true) (hi : i < n) (hv : v ≠ d) (hk : ∀ e ∈ t, e.1 ≠ i) :
    Table.wf n d (Table.insert t i v) = true := by
  induction t with
  | nil => simp [Table.insert, Table.wf, hi, hv]
  | cons x rest ih =>
    obtain ⟨k, w⟩ := x
    obtain ⟨h1, h2, h3, h4⟩ := Table.wf_cons.1 h
    unfold Table.insert
    split
    · next hlt =>
      refine Table.wf_cons.2 ⟨hi, hv, ?_, h⟩
      intro e he
      rcases List.mem_cons.1 he with rfl | he
      · exact hlt
      · exact lt_trans hlt (h3 e he)
    · next hlt =>
      refine Table.wf_cons.2 ⟨h1, h2, ?_, ih h4 (fun e he => hk e (by simp [he]))⟩
      intro e he
      rcases Table.mem_insert.1 he with rfl | he
      · have := hk (k, w) (by simp)
        simp only at this ⊢
        omega
      · exact h3 e he

/-- A write keeps the canonical form. -/
theorem Table.set_wf [DecidableEq α] {n : Nat} {d : α} {t : Table α} {i : Nat} {v : α}
    (h : Table.wf n d t = true) (hi : i < n) : Table.wf n d (Table.set d t i v) = true := by
  unfold Table.set
  split
  · exact Table.erase_wf i h
  · next hv => exact Table.insert_wf (Table.erase_wf i h) hi hv (fun e he => (Table.mem_erase.1 he).2)

theorem Table.map_wf [DecidableEq α] {n : Nat} {d : α} {t : Table α} (f : α → α) (h : Table.wf n d t = true) :
    Table.wf n d (Table.mapAll d f t) = true := by
  unfold Table.mapAll
  induction t with
  | nil => rfl
  | cons x rest ih =>
    obtain ⟨k, v⟩ := x
    obtain ⟨h1, -, h3, h4⟩ := Table.wf_cons.1 h
    rw [List.map_cons, List.filter_cons]
    split
    · next hp =>
      refine Table.wf_cons.2 ⟨h1, by simpa using hp, ?_, ih h4⟩
      intro e he
      simp only [List.mem_filter, List.mem_map] at he
      obtain ⟨⟨x, hx, rfl⟩, -⟩ := he
      exact h3 x hx
    · exact ih h4

theorem Table.get_unlisted {d : α} {t : Table α} {i : Nat} (h : ∀ e ∈ t, e.1 ≠ i) : Table.get d t i = d := by
  induction t with
  | nil => rfl
  | cons x rest ih =>
    obtain ⟨k, v⟩ := x
    have hk : k ≠ i := h (k, v) (by simp)
    rw [Table.get_cons, if_neg hk]
    exact ih (fun e he => h e (by simp [he]))

theorem Table.get_before {d : α} {t : Table α} {k : Nat} (h : ∀ e ∈ t, k < e.1) : Table.get d t k = d :=
  Table.get_unlisted (fun e he => (h e he).ne')

/-- In a canonical table the records listed are those that differ from the reset record. -/
theorem Table.mem_iff [DecidableEq α] {n : Nat} {d : α} {t : Table α} (h : Table.wf n d t = true) (i : Nat) (v : α) :
    (i, v) ∈ t ↔ Table.get d t i = v ∧ v ≠ d := by
  induction t with
  | nil => simp only [List.not_mem_nil, Table.get_nil, false_iff]; rintro ⟨rfl, h⟩; exact h rfl
  | cons x rest ih =>
    obtain ⟨k, w⟩ := x
    obtain ⟨-, h2, h3, h4⟩ := Table.wf_cons.1 h
    rw [List.mem_cons, Table.get_cons, ih h4]
    by_cases hk : k = i
    · subst hk
      have hn : Table.get d rest k = d := Table.get_before h3
      simp only [hn, if_true, Prod.mk.injEq, true_and]
      constructor
      · rintro (rfl | ⟨rfl, h⟩)
        · exact ⟨rfl, h2⟩
        · exact absurd rfl h
      · rintro ⟨rfl, -⟩; exact .inl rfl
    · simp [hk, Ne.symm hk]

theorem Table.get_mapAll [DecidableEq α] {n : Nat} {d : α} {t : Table α} (h : Table.wf n d t = true) (f : α → α)
    (hf : f d = d) (i : Nat) : Table.get d (Table.mapAll d f t) i = f (Table.get d t i) := by
  induction t with
  | nil => exact hf.symm
  | cons x rest ih =>
    obtain ⟨k, v⟩ := x
    obtain ⟨-, -, h3, h4⟩ := Table.wf_cons.1 h
    have hm : Table.mapAll d f ((k, v) :: rest) =
        if f v ≠ d then (k, f v) :: Table.mapAll d f rest else Table.mapAll d f rest := by
      by_cases hv : f v = d <;> simp [Table.mapAll, hv]
    rw [hm]
    by_cases hk : k = i
    · subst hk
      have hn : Table.get d rest k = d := Table.get_before h3
      split
      · simp [Table.get_cons]
      · next hv => simp only [ne_eq, not_not] at hv; rw [ih h4, hn, Table.get_cons, if_pos rfl, hv, hf]
    · split
      · rw [Table.get_cons, if_neg hk, Table.get_cons, if_neg hk, ih h4]
      · rw [Table.get_cons, if_neg hk, ih h4]

/-- Two canonical tables that read the same everywhere are the same data. -/
theorem Table.ext_get [DecidableEq α] {n : Nat} {d : α} {t u : Table α} (ht : Table.wf n d t = true)
    (hu : Table.wf n d u = true) (h : ∀ i, Table.get d t i = Table.get d u i) : t = u := by
  induction t generalizing u with
  | nil =>
    cases u with
    | nil => rfl
    | cons x rest =>
      obtain ⟨k, v⟩ := x
      obtain ⟨-, h2, -, -⟩ := Table.wf_cons.1 hu
      have := h k
      rw [Table.get_cons, if_pos rfl] at this
      exact absurd this.symm h2
  | cons x rest ih =>
    obtain ⟨k, v⟩ := x
    obtain ⟨h1, h2, h3, h4⟩ := Table.wf_cons.1 ht
    cases u with
    | nil =>
      have := h k
      rw [Table.get_cons, if_pos rfl] at this
      exact absurd this h2
    | cons y urest =>
      obtain ⟨l, w⟩ := y
      obtain ⟨g1, g2, g3, g4⟩ := Table.wf_cons.1 hu
      have hkl : k = l := by
        have hk : (k, v) ∈ (l, w) :: urest :=
          (Table.mem_iff hu k v).2 ⟨by rw [← h k, Table.get_cons, if_pos rfl], h2⟩
        have hl : (l, w) ∈ (k, v) :: rest :=
          (Table.mem_iff ht l w).2 ⟨by rw [h l, Table.get_cons, if_pos rfl], g2⟩
        rcases List.mem_cons.1 hk with hk | hk
        · exact congrArg Prod.fst hk
        · rcases List.mem_cons.1 hl with hl | hl
          · exact (congrArg Prod.fst hl).symm
          · have a := g3 _ hk
            have b := h3 _ hl
            simp only at a b
            omega
      subst hkl
      have hvw : v = w := by
        have := h k
        rwa [Table.get_cons, Table.get_cons, if_pos rfl, if_pos rfl] at this
      subst hvw
      have hrest : rest = urest := by
        refine ih h4 g4 (fun i => ?_)
        by_cases hi : k = i
        · subst hi
          have a : Table.get d rest k = d := Table.get_before h3
          have b : Table.get d urest k = d := Table.get_before g3
          rw [a, b]
        · have := h i
          rwa [Table.get_cons, Table.get_cons, if_neg hi, if_neg hi] at this
      rw [hrest]

/-- A canonical table lists no more records than it has indices. -/
theorem Table.length_le [DecidableEq α] {n : Nat} {d : α} {t : Table α} (h : Table.wf n d t = true) : t.length ≤ n := by
  suffices hs : ∀ k, (∀ e ∈ t, k ≤ e.1) → k + t.length ≤ max k n by
    have := hs 0 (by simp); omega
  induction t with
  | nil => intro k _; simp
  | cons x rest ih =>
    obtain ⟨k', v⟩ := x
    obtain ⟨h1, -, h3, h4⟩ := Table.wf_cons.1 h
    intro k hk
    have h5 := ih h4 (k' + 1) (fun e he => h3 e he)
    have h6 := hk (k', v) (by simp)
    simp only [List.length_cons] at h6 ⊢
    omega

/-! ### Counts of records -/

theorem Table.countP_erase [DecidableEq α] {n : Nat} {d : α} {t : Table α} (h : Table.wf n d t = true)
    (P : α → Bool) (hd : P d = false) (i : Nat) :
    (Table.erase t i).countP (fun x => P x.2) + (if P (Table.get d t i) then 1 else 0) =
      t.countP (fun x => P x.2) := by
  induction t with
  | nil => simp [Table.erase, hd]
  | cons x rest ih =>
    obtain ⟨k, v⟩ := x
    obtain ⟨-, -, h3, h4⟩ := Table.wf_cons.1 h
    by_cases hk : k = i
    · subst hk
      have hn : Table.get d rest k = d := Table.get_before h3
      have he : Table.erase ((k, v) :: rest) k = Table.erase rest k := by simp [Table.erase]
      have := ih h4
      rw [hn, hd] at this
      rw [he, Table.get_cons, if_pos rfl, List.countP_cons]
      simpa using this
    · have he : Table.erase ((k, v) :: rest) i = (k, v) :: Table.erase rest i := by simp [Table.erase, hk]
      have := ih h4
      rw [he, Table.get_cons, if_neg hk, List.countP_cons, List.countP_cons]
      omega

theorem Table.countP_insert {t : Table α} {i : Nat} {v : α} (P : α → Bool) :
    (Table.insert t i v).countP (fun x => P x.2) = t.countP (fun x => P x.2) + (if P v then 1 else 0) := by
  induction t with
  | nil => simp [Table.insert]
  | cons x rest ih =>
    obtain ⟨k, w⟩ := x
    unfold Table.insert
    split
    · simp [List.countP_cons]
    · simp only [List.countP_cons, ih]; omega

/-- A write changes a count of records by the record it replaces and the record it writes. -/
theorem Table.countP_set [DecidableEq α] {n : Nat} {d : α} {t : Table α} (h : Table.wf n d t = true)
    (P : α → Bool) (hd : P d = false) (i : Nat) (v : α) :
    (Table.set d t i v).countP (fun x => P x.2) + (if P (Table.get d t i) then 1 else 0) =
      t.countP (fun x => P x.2) + (if P v then 1 else 0) := by
  have he := Table.countP_erase h P hd i
  unfold Table.set
  split
  · next hv => subst hv; simp only [hd, Bool.false_eq_true, if_false]; omega
  · rw [Table.countP_insert]; omega

/-! ### Pattern Memory (R155, R156) -/

theorem Memory.read_write (m : Memory) (a b : Nat) (c : Byte) :
    (m.write a c).read b = if b = a then c else m.read b := Table.get_set _ _ _ _ _

theorem Memory.write_wf {m : Memory} {a : Nat} {c : Byte} (h : m.wf = true) (ha : a < 8192) : (m.write a c).wf = true :=
  Table.set_wf h ha

end Sys2Proof.Machine
end

