-- ==== Sys2Proof/Laws/Agreement.lean ====
section
/-! SUPPORT. The laws between the tables, read off the records that the tables list: what holds of every listed record and
of the reset record holds of every record, so that a state with few records is checked by evaluation. -/

namespace Sys2Proof.Machine

/-- What holds of every listed record and of the reset record holds at every index. -/
theorem Table.forall_get {α : Type} {d : α} {t : Table α} {P : Nat → α → Prop} (h : ∀ x ∈ t, P x.1 x.2)
    (hd : ∀ i, P i d) (i : Nat) : P i (Table.get d t i) := by
  induction t with
  | nil => exact hd i
  | cons x rest ih =>
    rw [Table.get_cons]
    split
    · next hx => exact hx ▸ h x (List.mem_cons_self ..)
    · exact ih (fun y hy => h y (List.mem_cons_of_mem _ hy))

/-- The laws between the tables, at the listed records. -/
def State.listedAgree (s : State) : Prop :=
  (∀ x ∈ s.positions, (∀ e ∈ x.2.owner, (s.entry e).state = .admitted ∧ (s.entry e).home = some x.1) ∧
      (∀ e ∈ x.2.pending, (s.entry e).candidate.map Candidate.position = some x.1) ∧
      (∀ j ∈ x.2.context, (s.context j).call.map Call.position = some x.1 ∧ x.2.requested.isLoop = false)) ∧
    (∀ x ∈ s.entries, (x.2.home.isSome = decide (x.2.state = .admitted)) ∧
      (∀ p ∈ x.2.home, (s.position p).owner = some x.1) ∧
      (x.2.state ≠ .admitted → x.2.refresh = none ∧ x.2.rechallenge = none) ∧
      (x.2.state = .admitted → x.2.refresh.isNone = x.2.candidate.any (fun c => decide (c.kind = .renew))) ∧
      (∀ c ∈ x.2.candidate, (s.position c.position).pending = some x.1 ∧
        (c.kind = .first → x.2.state = .absent) ∧
        (c.kind = .move → x.2.state = .admitted ∧ x.2.home ≠ some c.position) ∧
        (c.kind = .renew → x.2.state = .admitted ∧ x.2.home = some c.position)) ∧
      (∀ j ∈ x.2.context, (s.context j).call.map Call.entry = some x.1) ∧
      ∀ y ∈ s.entries, x.2.loaded = true → y.2.loaded = true → x.2.identity = y.2.identity → x.1 = y.1) ∧
    (∀ x ∈ s.contexts, ∀ c ∈ x.2.call, (s.position c.position).context = some x.1 ∧ (s.entry c.entry).context = some x.1 ∧
      (s.entry c.entry).state = .admitted ∧ (s.entry c.entry).home = some c.position ∧ (s.entry c.entry).group < 16) ∧
    (∀ x ∈ s.groups, x.1 < 16) ∧
    (∀ g ∈ List.range 16, (s.group g).inUse = s.openIn g ∧ (s.group g).inUse ≤ (s.group g).budget) ∧
    (∀ i ∈ s.liveItems, (s.entry i.entry).candidate.map (fun c => (c.position, c.challenge, c.stage)) =
      some (i.position, i.challenge, Stage.queued)) ∧ (s.liveItems.map VerifyItem.entry).Nodup

theorem renewing_iff (e : Entry) : e.candidate.any (fun c => decide (c.kind = .renew)) = true ↔ e.renewing := by
  unfold Entry.renewing
  cases e.candidate <;> simp

/-- A state whose listed records agree agrees. -/
theorem State.agrees_of_listed {s : State} (h : s.listedAgree) : s.agrees := by
  obtain ⟨hpos, hent, hctx, hgrp, hbud, hitems, hnodup⟩ := h
  have hP := fun p => Table.forall_get (d := ({} : Position)) (t := s.positions)
    (P := fun p x => (∀ e ∈ x.owner, (s.entry e).state = .admitted ∧ (s.entry e).home = some p) ∧
      (∀ e ∈ x.pending, (s.entry e).candidate.map Candidate.position = some p) ∧
      (∀ j ∈ x.context, (s.context j).call.map Call.position = some p ∧ x.requested.isLoop = false))
    hpos (fun _ => by simp) p
  have hE := fun e => Table.forall_get (d := ({} : Entry)) (t := s.entries)
    (P := fun e x => (x.home.isSome = decide (x.state = .admitted)) ∧
      (∀ p ∈ x.home, (s.position p).owner = some e) ∧
      (x.state ≠ .admitted → x.refresh = none ∧ x.rechallenge = none) ∧
      (x.state = .admitted → x.refresh.isNone = x.candidate.any (fun c => decide (c.kind = .renew))) ∧
      (∀ c ∈ x.candidate, (s.position c.position).pending = some e ∧
        (c.kind = .first → x.state = .absent) ∧
        (c.kind = .move → x.state = .admitted ∧ x.home ≠ some c.position) ∧
        (c.kind = .renew → x.state = .admitted ∧ x.home = some c.position)) ∧
      (∀ j ∈ x.context, (s.context j).call.map Call.entry = some e) ∧
      ∀ y ∈ s.entries, x.loaded = true → y.2.loaded = true → x.identity = y.2.identity → e = y.1)
    hent (fun _ => by simp [Entry.loaded]) e
  have hC := fun j => Table.forall_get (d := ({} : Context)) (t := s.contexts)
    (P := fun j x => ∀ c ∈ x.call, (s.position c.position).context = some j ∧ (s.entry c.entry).context = some j ∧
      (s.entry c.entry).state = .admitted ∧ (s.entry c.entry).home = some c.position ∧ (s.entry c.entry).group < 16)
    hctx (fun _ => by simp) j
  have hadm : ∀ e, (s.entry e).home ≠ none ↔ (s.entry e).state = .admitted := by
    intro e
    have h := (hE e).1
    rw [← Option.isSome_iff_ne_none]
    change (s.entry e).home.isSome = decide ((s.entry e).state = .admitted) at h
    rw [h]; simp
  refine ⟨⟨fun p e => ⟨fun h => (hP p).1 e h, fun h => (hE e).2.1 p h.2⟩, hadm⟩, fun e => ⟨(hE e).2.2.1, fun h => ?_⟩,
    ⟨fun p e => ⟨fun h => ?_, ?_⟩, fun e c hc => ?_⟩, ⟨fun j c hc => ?_, fun p j h => ?_, fun e j h => ?_, fun p h => ?_⟩,
    fun g => ?_, ⟨hitems, hnodup⟩, fun e f he hf hi => ?_⟩
  · have := (hE e).2.2.2.1 h
    change (s.entry e).refresh.isNone = (s.entry e).candidate.any _ at this
    rw [← Option.isNone_iff_eq_none, this]
    exact renewing_iff _
  · have := (hP p).2.1 e h
    cases hc : (s.entry e).candidate with
    | none => rw [hc] at this; simp at this
    | some c => exact ⟨c, rfl, by rw [hc] at this; simpa using this⟩
  · rintro ⟨c, hc, rfl⟩
    exact ((hE e).2.2.2.2.1 c hc).1
  · obtain ⟨-, h1, h2, h3⟩ := (hE e).2.2.2.2.1 c hc
    unfold Entry.kindAgrees
    cases hk : c.kind with
    | first => exact h1 hk
    | move => exact h2 hk
    | renew => exact h3 hk
  · obtain ⟨h1, h2, h3, h4, -⟩ := hC j c hc
    exact ⟨h1, h2, h3, h4⟩
  · have := ((hP p).2.2 j h).1
    cases hc : (s.context j).call with
    | none => rw [hc] at this; simp at this
    | some c => exact ⟨c, rfl, by rw [hc] at this; simpa using this⟩
  · have := (hE e).2.2.2.2.2.1 j h
    cases hc : (s.context j).call with
    | none => rw [hc] at this; simp at this
    | some c => exact ⟨c, rfl, by rw [hc] at this; simpa using this⟩
  · obtain ⟨j, hj⟩ := Option.ne_none_iff_exists'.1 h
    exact ((hP p).2.2 j hj).2
  · by_cases hg : g < 16
    · exact hbud g (List.mem_range.2 hg)
    · have hd : s.group g = {} := Table.get_unlisted (fun x hx h => hg (h ▸ hgrp x hx))
      have hz : s.openIn g = 0 := by
        rw [State.openIn, List.countP_eq_zero]
        intro x hx hcount
        unfold State.countedIn at hcount
        cases hc : x.2.call with
        | none => rw [hc] at hcount; simp at hcount
        | some c =>
          have := (hctx x hx c (by simp [hc])).2.2.2.2
          rw [hc] at hcount
          simp at hcount
          omega
      rw [hd, hz]; decide
  · have key := Table.forall_get (d := ({} : Entry)) (t := s.entries)
      (P := fun f y => (s.entry e).loaded = true → y.loaded = true → (s.entry e).identity = y.identity → e = f)
      (fun y hy => (hE e).2.2.2.2.2.2 y hy) (fun _ _ h => by simp [Entry.loaded] at h) f
    exact key he hf hi

/-! ### Quiet states -/

/-- Nothing is due and no deadline stands at its count, at the listed records. -/
def State.listedQuiet (s : State) : Prop :=
  s.boundary = { cutShort := s.boundary.cutShort } ∧ s.completing = [] ∧
    (∀ x ∈ s.positions, x.2.holdOff ≠ some s.frameCount) ∧
    ∀ x ∈ s.entries, x.2.candidate.map Candidate.stage ≠ some (.awaiting s.frameCount) ∧
      x.2.refresh ≠ some s.secondCount ∧ x.2.rechallenge ≠ some s.secondCount

/-- A state with a pulse is in a frame with nothing due, read off its listed records. -/
theorem State.inFrame_of_listed {s : State} (hp : s.pulse.isAbsent = false) (h : s.listedQuiet) : s.inFrame := by
  obtain ⟨hb, hc, hh, he⟩ := h
  have hx : ∀ e, (s.entry e).candidate.map Candidate.stage ≠ some (.awaiting s.frameCount) ∧
      (s.entry e).refresh ≠ some s.secondCount ∧ (s.entry e).rechallenge ≠ some s.secondCount := fun e =>
    Table.forall_get (d := ({} : Entry))
      (P := fun _ x => x.candidate.map Candidate.stage ≠ some (.awaiting s.frameCount) ∧
        x.refresh ≠ some s.secondCount ∧ x.rechallenge ≠ some s.secondCount) he (fun _ => by simp) e
  refine ⟨hp, hb, hc, fun p => ?_, fun e c hec hst => ?_, fun e => (hx e).2.1, fun e => (hx e).2.2⟩
  · exact Table.forall_get (d := ({} : Position)) (P := fun _ x => x.holdOff ≠ some s.frameCount) hh (fun _ => by simp) p
  · exact (hx e).1 (by rw [hec, Option.map_some, hst])

end Sys2Proof.Machine
end

