-- ==== Sys2Proof/Laws/Boundary.lean ====
section
/-! SUPPORT. What a boundary still has to bring about: one lemma per event that is not due; what every event keeps the whole
keeps; and in a quiet state there is nothing, so that there each cell acts at once. -/

namespace Sys2Proof.Machine

/-! ### Events that are not due -/

theorem State.forEach_nil (s : State) (event : State → Nat → State) : s.forEach [] event = s := rfl

theorem State.forEach_cons (s : State) (i : Nat) (is : List Nat) (event : State → Nat → State) :
    s.forEach (i :: is) event = (event s i).forEach is event := rfl

/-- Events that each change nothing change nothing together. -/
theorem State.forEach_idle {s : State} {event : State → Nat → State} (h : ∀ i, event s i = s) (is : List Nat) :
    s.forEach is event = s := by
  induction is with
  | nil => rfl
  | cons i is ih => rw [State.forEach_cons, h, ih]

theorem State.takeHoldOff_idle {s : State} {p : Nat} (h : (s.position p).holdOff ≠ some s.frameCount) :
    s.takeHoldOff p = s := if_neg h

theorem State.takeAnswerDeadline_idle {s : State} {e : Nat}
    (h : ∀ c, (s.entry e).candidate = some c → c.stage ≠ .awaiting s.frameCount) : s.takeAnswerDeadline e = s := by
  unfold State.takeAnswerDeadline
  split
  · rfl
  · next c hc => exact if_neg (h c hc)

theorem State.takeRefresh_idle {s : State} {e : Nat} (h : (s.entry e).refresh ≠ some s.secondCount) :
    s.takeRefresh e = s := if_neg h

theorem State.takeRechallenge_idle {s : State} {e : Nat} (h : (s.entry e).rechallenge ≠ some s.secondCount) :
    s.takeRechallenge e = s := if_neg h

theorem State.takeSecond_idle {s : State} (h : s.boundary.secondDue = false) : s.takeSecond = s := by
  simp [State.takeSecond, h]

theorem State.complete_idle {s : State} (h : s.completing = []) : s.complete = s := by
  simp [State.complete, h]

theorem State.takeVerifications_idle {s : State} (h : s.boundary.takeDue = false) : s.takeVerifications = s := by
  simp [State.takeVerifications, h]

theorem State.takeReport_idle {s : State} (h : s.boundary.reportDue = false) : s.takeReport = s := by
  simp [State.takeReport, h]

theorem State.supplyUp_idle {s : State} {p : Nat} (h : p ∉ s.boundary.suppliedUp) : s.supplyUp p = s := if_neg h

theorem State.supplyDown_idle {s : State} {p : Nat} (h : p ∉ s.boundary.suppliedDown) : s.supplyDown p = s := if_neg h

theorem State.takeTx_idle {s : State} {j : Nat} (h : j ∉ s.boundary.txDue) : s.takeTx j = s := if_neg h

theorem State.takePlayout_idle {s : State} {c : Nat} (h : c ∉ s.boundary.playoutDue) : s.takePlayout c = s := if_neg h

theorem State.takeLineCell_idle {s : State} {h : Nat} (hh : h ∉ s.boundary.lineDue) : s.takeLineCell h = s := if_neg hh

/-- Before a carried upstream arrival the boundary owes the advance of the context of a position in a call, and otherwise
nothing. -/
theorem State.advanceTxAt_cases (s : State) (p : Nat) :
    s.advanceTxAt p = s ∨ ∃ shape j call, s.effective p = .scrambled shape j call ∧ s.advanceTxAt p = s.takeTx j := by
  unfold State.advanceTxAt
  split
  · next shape j call h => exact .inr ⟨shape, j, call, h, rfl⟩
  all_goals exact .inl rfl

theorem State.beforeDownstream_idle {s : State} (h : s.boundary.playoutDue = []) (hr : s.boundary.reportDue = false) :
    s.beforeDownstream = s := by
  rw [State.beforeDownstream, h, State.forEach_nil]
  exact State.takeReport_idle hr

/-- The channels due at a boundary are those RUNNING when it comes (R160). -/
theorem State.mem_runningChannels {s : State} (h : Table.wf 16 {} s.channels = true) (c : Nat) :
    c ∈ s.runningChannels ↔ (s.channel c).status = .running := by
  simp only [State.runningChannels, List.mem_map, List.mem_filter, decide_eq_true_eq]
  constructor
  · rintro ⟨⟨k, v⟩, ⟨hm, hv⟩, rfl⟩
    show (Table.get {} s.channels k).status = .running
    rw [((Table.mem_iff h k v).1 hm).1]
    exact hv
  · intro hc
    refine ⟨(c, s.channel c), ⟨(Table.mem_iff h c _).2 ⟨rfl, fun hd => ?_⟩, hc⟩, rfl⟩
    rw [hd] at hc
    exact absurd hc (by decide)

/-! ### What every event keeps -/

/-- What an event keeps, a sequence of it keeps. -/
theorem State.forEach_keeps {P : State → Prop} {event : State → Nat → State} (h : ∀ s i, P s → P (event s i))
    (is : List Nat) {s : State} (hs : P s) : P (s.forEach is event) := by
  induction is generalizing s with
  | nil => exact hs
  | cons i is ih => exact ih (h s i hs)

/-- What each event of a boundary keeps, all that the boundary brings about keeps. -/
theorem State.finishBoundary_keeps {P : State → Prop} (hup : ∀ s p, P s → P (s.supplyUp p))
    (hdown : ∀ s p, P s → P (s.supplyDown p)) (hsecond : ∀ s, P s → P s.takeSecond)
    (hcomplete : ∀ s, P s → P s.complete) (htake : ∀ s, P s → P s.takeVerifications)
    (hhold : ∀ s p, P s → P (s.takeHoldOff p)) (hanswer : ∀ s e, P s → P (s.takeAnswerDeadline e))
    (hrefresh : ∀ s e, P s → P (s.takeRefresh e)) (hrechallenge : ∀ s e, P s → P (s.takeRechallenge e))
    (htx : ∀ s j, P s → P (s.takeTx j)) (hplayout : ∀ s c, P s → P (s.takePlayout c))
    (hline : ∀ s h, P s → P (s.takeLineCell h)) (hreport : ∀ s, P s → P s.takeReport) {s : State} (hs : P s) :
    P s.finishBoundary :=
  hreport _ <| State.forEach_keeps hline _ <| State.forEach_keeps hplayout _ <| State.forEach_keeps htx _ <|
    State.forEach_keeps hrechallenge _ <| State.forEach_keeps hrefresh _ <| State.forEach_keeps hanswer _ <|
    State.forEach_keeps hhold _ <| htake _ <| hcomplete _ <| hsecond _ <| State.forEach_keeps hdown _ <|
    State.forEach_keeps hup _ hs

/-! ### A quiet state -/

/-- A boundary has nothing left to bring about in a quiet state. -/
theorem State.finishBoundary_of_quiet {s : State} (h : s.quiet) : s.finishBoundary = s := by
  obtain ⟨hb, hc, hp, ha, hr, hx⟩ := h
  have hu : s.boundary.suppliedUp = [] := by rw [hb]
  have hd : s.boundary.suppliedDown = [] := by rw [hb]
  have hs : s.boundary.secondDue = false := by rw [hb]
  have ht : s.boundary.takeDue = false := by rw [hb]
  have hq : s.boundary.reportDue = false := by rw [hb]
  have hl : s.boundary.lineDue = [] := by rw [hb]
  have ho : s.boundary.playoutDue = [] := by rw [hb]
  have hj : s.boundary.txDue = [] := by rw [hb]
  simp only [State.finishBoundary, hu, hd, State.forEach_nil, State.takeSecond_idle hs, State.complete_idle hc,
    State.takeVerifications_idle ht]
  rw [State.forEach_idle (fun p => State.takeHoldOff_idle (hp p)),
    State.forEach_idle (fun e => State.takeAnswerDeadline_idle (ha e)),
    State.forEach_idle (fun e => State.takeRefresh_idle (hr e)),
    State.forEach_idle (fun e => State.takeRechallenge_idle (hx e)), hj, State.forEach_nil, ho, State.forEach_nil, hl,
    State.forEach_nil]
  exact State.takeReport_idle hq

/-- In a frame whose boundary is done, a management cell is taken as it stands. -/
theorem State.managementCell_inFrame {s : State} (h : s.inFrame) (effect : State → State) :
    s.managementCell effect = .next (effect s) := by
  have hp : s.pulse.isAbsent = false := h.1
  simp [State.managementCell, State.whilePulsed, hp, State.finishBoundary_of_quiet h.2]

/-- In a frame whose boundary is done, a line cell acts on the position its slot names. -/
theorem State.lineCell_inFrame {s : State} (h : s.inFrame) {slot : Nat} (hs : slot < 120) (highway : Nat)
    (effect : Nat → State → State) : s.lineCell highway slot effect = .next (effect (positionOf highway slot) s) := by
  have hp : s.pulse.isAbsent = false := h.1
  simp [State.lineCell, State.whilePulsed, hp, hs, State.finishBoundary_of_quiet h.2]

end Sys2Proof.Machine
end

