-- ==== Sys2Proof/Laws/Memory.lean ====
section
/-! SUPPORT. Pattern Memory: every operation over it keeps its canonical form, what a LOAD PATTERN leaves at each address,
and the form of the memory after reset. -/

namespace Sys2Proof.Machine

/-- Four codes written below the end of Pattern Memory keep its canonical form (R155, R156). -/
theorem Memory.writeFour_wf {m : Memory} {a : Nat} {c0 c1 c2 c3 : Byte} (h : m.wf = true) (ha : a ≤ 8188) :
    (m.writeFour a c0 c1 c2 c3).wf = true :=
  Memory.write_wf (Memory.write_wf (Memory.write_wf (Memory.write_wf h (by omega)) (by omega)) (by omega)) (by omega)

/-- What each address holds after four codes are written (R156). -/
theorem Memory.read_writeFour (m : Memory) (a b : Nat) (c0 c1 c2 c3 : Byte) :
    (m.writeFour a c0 c1 c2 c3).read b =
      if b = a + 3 then c3 else if b = a + 2 then c2 else if b = a + 1 then c1 else if b = a then c0 else m.read b := by
  simp only [Memory.writeFour, Memory.read_write]

/-- Pattern Memory after reset is in its canonical form. -/
theorem State.reset_pattern_wf : State.reset.pattern.wf = true := rfl

end Sys2Proof.Machine
end

