-- ==== Sys2Proof/Laws/State.lean ====
section
/-! SUPPORT. The state's record updates, field by field: what a write of one record leaves in every field, and what each
table reads as after it. -/

namespace Sys2Proof.Machine

variable (s : State) (i j : Nat)

/-! ### setPosition -/

@[simp] theorem State.setPosition_pending (v : Position) : (s.setPosition i v).pending = s.pending := rfl
@[simp] theorem State.setPosition_frameCount (v : Position) : (s.setPosition i v).frameCount = s.frameCount := rfl
@[simp] theorem State.setPosition_framePrescale (v : Position) : (s.setPosition i v).framePrescale = s.framePrescale := rfl
@[simp] theorem State.setPosition_secondCount (v : Position) : (s.setPosition i v).secondCount = s.secondCount := rfl
@[simp] theorem State.setPosition_pulse (v : Position) : (s.setPosition i v).pulse = s.pulse := rfl
@[simp] theorem State.setPosition_boundary (v : Position) : (s.setPosition i v).boundary = s.boundary := rfl
theorem State.setPosition_positions (v : Position) : (s.setPosition i v).positions = Table.set {} s.positions i v := rfl
@[simp] theorem State.setPosition_entries (v : Position) : (s.setPosition i v).entries = s.entries := rfl
@[simp] theorem State.setPosition_groups (v : Position) : (s.setPosition i v).groups = s.groups := rfl
@[simp] theorem State.setPosition_contexts (v : Position) : (s.setPosition i v).contexts = s.contexts := rfl
@[simp] theorem State.setPosition_channels (v : Position) : (s.setPosition i v).channels = s.channels := rfl
@[simp] theorem State.setPosition_highways (v : Position) : (s.setPosition i v).highways = s.highways := rfl
@[simp] theorem State.setPosition_reserved (v : Position) : (s.setPosition i v).reserved = s.reserved := rfl
@[simp] theorem State.setPosition_inFlight (v : Position) : (s.setPosition i v).inFlight = s.inFlight := rfl
@[simp] theorem State.setPosition_completing (v : Position) : (s.setPosition i v).completing = s.completing := rfl
@[simp] theorem State.setPosition_verifyQueue (v : Position) : (s.setPosition i v).verifyQueue = s.verifyQueue := rfl
@[simp] theorem State.setPosition_verifyPause (v : Position) : (s.setPosition i v).verifyPause = s.verifyPause := rfl
@[simp] theorem State.setPosition_pattern (v : Position) : (s.setPosition i v).pattern = s.pattern := rfl
@[simp] theorem State.setPosition_pairBuffer (v : Position) : (s.setPosition i v).pairBuffer = s.pairBuffer := rfl
@[simp] theorem State.setPosition_settings (v : Position) : (s.setPosition i v).settings = s.settings := rfl
@[simp] theorem State.setPosition_reportQueue (v : Position) : (s.setPosition i v).reportQueue = s.reportQueue := rfl
@[simp] theorem State.setPosition_reportPause (v : Position) : (s.setPosition i v).reportPause = s.reportPause := rfl
@[simp] theorem State.setPosition_lostReports (v : Position) : (s.setPosition i v).lostReports = s.lostReports := rfl
@[simp] theorem State.setPosition_reportSending (v : Position) : (s.setPosition i v).reportSending = s.reportSending := rfl
@[simp] theorem State.setPosition_freeCount (v : Position) : (s.setPosition i v).freeCount = s.freeCount := rfl
@[simp] theorem State.entry_setPosition (v : Position) : (s.setPosition i v).entry j = s.entry j := rfl
@[simp] theorem State.group_setPosition (v : Position) : (s.setPosition i v).group j = s.group j := rfl
@[simp] theorem State.context_setPosition (v : Position) : (s.setPosition i v).context j = s.context j := rfl
@[simp] theorem State.channel_setPosition (v : Position) : (s.setPosition i v).channel j = s.channel j := rfl
@[simp] theorem State.highway_setPosition (v : Position) : (s.setPosition i v).highway j = s.highway j := rfl
@[simp] theorem State.setPosition_setPosition (v w : Position) : (s.setPosition i v).setPosition i w = s.setPosition i w := by simp [State.setPosition]
theorem State.position_setPosition (v : Position) : (s.setPosition i v).position j = if j = i then v else s.position j :=
  Table.get_set _ _ _ _ _
@[simp] theorem State.position_setPosition_self (v : Position) : (s.setPosition i v).position i = v := by simp [State.position_setPosition]
theorem State.position_setPosition_other (v : Position) {i j : Nat} (h : j ≠ i) : (s.setPosition i v).position j = s.position j := by
  simp [State.position_setPosition, h]

/-! ### setEntry -/

@[simp] theorem State.setEntry_pending (v : Entry) : (s.setEntry i v).pending = s.pending := rfl
@[simp] theorem State.setEntry_frameCount (v : Entry) : (s.setEntry i v).frameCount = s.frameCount := rfl
@[simp] theorem State.setEntry_framePrescale (v : Entry) : (s.setEntry i v).framePrescale = s.framePrescale := rfl
@[simp] theorem State.setEntry_secondCount (v : Entry) : (s.setEntry i v).secondCount = s.secondCount := rfl
@[simp] theorem State.setEntry_pulse (v : Entry) : (s.setEntry i v).pulse = s.pulse := rfl
@[simp] theorem State.setEntry_boundary (v : Entry) : (s.setEntry i v).boundary = s.boundary := rfl
@[simp] theorem State.setEntry_positions (v : Entry) : (s.setEntry i v).positions = s.positions := rfl
theorem State.setEntry_entries (v : Entry) : (s.setEntry i v).entries = Table.set {} s.entries i v := rfl
@[simp] theorem State.setEntry_groups (v : Entry) : (s.setEntry i v).groups = s.groups := rfl
@[simp] theorem State.setEntry_contexts (v : Entry) : (s.setEntry i v).contexts = s.contexts := rfl
@[simp] theorem State.setEntry_channels (v : Entry) : (s.setEntry i v).channels = s.channels := rfl
@[simp] theorem State.setEntry_highways (v : Entry) : (s.setEntry i v).highways = s.highways := rfl
@[simp] theorem State.setEntry_reserved (v : Entry) : (s.setEntry i v).reserved = s.reserved := rfl
@[simp] theorem State.setEntry_inFlight (v : Entry) : (s.setEntry i v).inFlight = s.inFlight := rfl
@[simp] theorem State.setEntry_completing (v : Entry) : (s.setEntry i v).completing = s.completing := rfl
@[simp] theorem State.setEntry_verifyQueue (v : Entry) : (s.setEntry i v).verifyQueue = s.verifyQueue := rfl
@[simp] theorem State.setEntry_verifyPause (v : Entry) : (s.setEntry i v).verifyPause = s.verifyPause := rfl
@[simp] theorem State.setEntry_pattern (v : Entry) : (s.setEntry i v).pattern = s.pattern := rfl
@[simp] theorem State.setEntry_pairBuffer (v : Entry) : (s.setEntry i v).pairBuffer = s.pairBuffer := rfl
@[simp] theorem State.setEntry_settings (v : Entry) : (s.setEntry i v).settings = s.settings := rfl
@[simp] theorem State.setEntry_reportQueue (v : Entry) : (s.setEntry i v).reportQueue = s.reportQueue := rfl
@[simp] theorem State.setEntry_reportPause (v : Entry) : (s.setEntry i v).reportPause = s.reportPause := rfl
@[simp] theorem State.setEntry_lostReports (v : Entry) : (s.setEntry i v).lostReports = s.lostReports := rfl
@[simp] theorem State.setEntry_reportSending (v : Entry) : (s.setEntry i v).reportSending = s.reportSending := rfl
@[simp] theorem State.setEntry_freeCount (v : Entry) : (s.setEntry i v).freeCount = s.freeCount := rfl
@[simp] theorem State.position_setEntry (v : Entry) : (s.setEntry i v).position j = s.position j := rfl
@[simp] theorem State.group_setEntry (v : Entry) : (s.setEntry i v).group j = s.group j := rfl
@[simp] theorem State.context_setEntry (v : Entry) : (s.setEntry i v).context j = s.context j := rfl
@[simp] theorem State.channel_setEntry (v : Entry) : (s.setEntry i v).channel j = s.channel j := rfl
@[simp] theorem State.highway_setEntry (v : Entry) : (s.setEntry i v).highway j = s.highway j := rfl
@[simp] theorem State.setEntry_setEntry (v w : Entry) : (s.setEntry i v).setEntry i w = s.setEntry i w := by simp [State.setEntry]
theorem State.entry_setEntry (v : Entry) : (s.setEntry i v).entry j = if j = i then v else s.entry j :=
  Table.get_set _ _ _ _ _
@[simp] theorem State.entry_setEntry_self (v : Entry) : (s.setEntry i v).entry i = v := by simp [State.entry_setEntry]
theorem State.entry_setEntry_other (v : Entry) {i j : Nat} (h : j ≠ i) : (s.setEntry i v).entry j = s.entry j := by
  simp [State.entry_setEntry, h]

/-! ### setGroup -/

@[simp] theorem State.setGroup_pending (v : Group) : (s.setGroup i v).pending = s.pending := rfl
@[simp] theorem State.setGroup_frameCount (v : Group) : (s.setGroup i v).frameCount = s.frameCount := rfl
@[simp] theorem State.setGroup_framePrescale (v : Group) : (s.setGroup i v).framePrescale = s.framePrescale := rfl
@[simp] theorem State.setGroup_secondCount (v : Group) : (s.setGroup i v).secondCount = s.secondCount := rfl
@[simp] theorem State.setGroup_pulse (v : Group) : (s.setGroup i v).pulse = s.pulse := rfl
@[simp] theorem State.setGroup_boundary (v : Group) : (s.setGroup i v).boundary = s.boundary := rfl
@[simp] theorem State.setGroup_positions (v : Group) : (s.setGroup i v).positions = s.positions := rfl
@[simp] theorem State.setGroup_entries (v : Group) : (s.setGroup i v).entries = s.entries := rfl
theorem State.setGroup_groups (v : Group) : (s.setGroup i v).groups = Table.set {} s.groups i v := rfl
@[simp] theorem State.setGroup_contexts (v : Group) : (s.setGroup i v).contexts = s.contexts := rfl
@[simp] theorem State.setGroup_channels (v : Group) : (s.setGroup i v).channels = s.channels := rfl
@[simp] theorem State.setGroup_highways (v : Group) : (s.setGroup i v).highways = s.highways := rfl
@[simp] theorem State.setGroup_reserved (v : Group) : (s.setGroup i v).reserved = s.reserved := rfl
@[simp] theorem State.setGroup_inFlight (v : Group) : (s.setGroup i v).inFlight = s.inFlight := rfl
@[simp] theorem State.setGroup_completing (v : Group) : (s.setGroup i v).completing = s.completing := rfl
@[simp] theorem State.setGroup_verifyQueue (v : Group) : (s.setGroup i v).verifyQueue = s.verifyQueue := rfl
@[simp] theorem State.setGroup_verifyPause (v : Group) : (s.setGroup i v).verifyPause = s.verifyPause := rfl
@[simp] theorem State.setGroup_pattern (v : Group) : (s.setGroup i v).pattern = s.pattern := rfl
@[simp] theorem State.setGroup_pairBuffer (v : Group) : (s.setGroup i v).pairBuffer = s.pairBuffer := rfl
@[simp] theorem State.setGroup_settings (v : Group) : (s.setGroup i v).settings = s.settings := rfl
@[simp] theorem State.setGroup_reportQueue (v : Group) : (s.setGroup i v).reportQueue = s.reportQueue := rfl
@[simp] theorem State.setGroup_reportPause (v : Group) : (s.setGroup i v).reportPause = s.reportPause := rfl
@[simp] theorem State.setGroup_lostReports (v : Group) : (s.setGroup i v).lostReports = s.lostReports := rfl
@[simp] theorem State.setGroup_reportSending (v : Group) : (s.setGroup i v).reportSending = s.reportSending := rfl
@[simp] theorem State.setGroup_freeCount (v : Group) : (s.setGroup i v).freeCount = s.freeCount := rfl
@[simp] theorem State.position_setGroup (v : Group) : (s.setGroup i v).position j = s.position j := rfl
@[simp] theorem State.entry_setGroup (v : Group) : (s.setGroup i v).entry j = s.entry j := rfl
@[simp] theorem State.context_setGroup (v : Group) : (s.setGroup i v).context j = s.context j := rfl
@[simp] theorem State.channel_setGroup (v : Group) : (s.setGroup i v).channel j = s.channel j := rfl
@[simp] theorem State.highway_setGroup (v : Group) : (s.setGroup i v).highway j = s.highway j := rfl
@[simp] theorem State.setGroup_setGroup (v w : Group) : (s.setGroup i v).setGroup i w = s.setGroup i w := by simp [State.setGroup]
theorem State.group_setGroup (v : Group) : (s.setGroup i v).group j = if j = i then v else s.group j :=
  Table.get_set _ _ _ _ _
@[simp] theorem State.group_setGroup_self (v : Group) : (s.setGroup i v).group i = v := by simp [State.group_setGroup]
theorem State.group_setGroup_other (v : Group) {i j : Nat} (h : j ≠ i) : (s.setGroup i v).group j = s.group j := by
  simp [State.group_setGroup, h]

/-! ### setContext -/

@[simp] theorem State.setContext_pending (v : Context) : (s.setContext i v).pending = s.pending := rfl
@[simp] theorem State.setContext_frameCount (v : Context) : (s.setContext i v).frameCount = s.frameCount := rfl
@[simp] theorem State.setContext_framePrescale (v : Context) : (s.setContext i v).framePrescale = s.framePrescale := rfl
@[simp] theorem State.setContext_secondCount (v : Context) : (s.setContext i v).secondCount = s.secondCount := rfl
@[simp] theorem State.setContext_pulse (v : Context) : (s.setContext i v).pulse = s.pulse := rfl
@[simp] theorem State.setContext_boundary (v : Context) : (s.setContext i v).boundary = s.boundary := rfl
@[simp] theorem State.setContext_positions (v : Context) : (s.setContext i v).positions = s.positions := rfl
@[simp] theorem State.setContext_entries (v : Context) : (s.setContext i v).entries = s.entries := rfl
@[simp] theorem State.setContext_groups (v : Context) : (s.setContext i v).groups = s.groups := rfl
theorem State.setContext_contexts (v : Context) : (s.setContext i v).contexts = Table.set {} s.contexts i v := rfl
@[simp] theorem State.setContext_channels (v : Context) : (s.setContext i v).channels = s.channels := rfl
@[simp] theorem State.setContext_highways (v : Context) : (s.setContext i v).highways = s.highways := rfl
@[simp] theorem State.setContext_reserved (v : Context) : (s.setContext i v).reserved = s.reserved := rfl
@[simp] theorem State.setContext_inFlight (v : Context) : (s.setContext i v).inFlight = s.inFlight := rfl
@[simp] theorem State.setContext_completing (v : Context) : (s.setContext i v).completing = s.completing := rfl
@[simp] theorem State.setContext_verifyQueue (v : Context) : (s.setContext i v).verifyQueue = s.verifyQueue := rfl
@[simp] theorem State.setContext_verifyPause (v : Context) : (s.setContext i v).verifyPause = s.verifyPause := rfl
@[simp] theorem State.setContext_pattern (v : Context) : (s.setContext i v).pattern = s.pattern := rfl
@[simp] theorem State.setContext_pairBuffer (v : Context) : (s.setContext i v).pairBuffer = s.pairBuffer := rfl
@[simp] theorem State.setContext_settings (v : Context) : (s.setContext i v).settings = s.settings := rfl
@[simp] theorem State.setContext_reportQueue (v : Context) : (s.setContext i v).reportQueue = s.reportQueue := rfl
@[simp] theorem State.setContext_reportPause (v : Context) : (s.setContext i v).reportPause = s.reportPause := rfl
@[simp] theorem State.setContext_lostReports (v : Context) : (s.setContext i v).lostReports = s.lostReports := rfl
@[simp] theorem State.setContext_reportSending (v : Context) : (s.setContext i v).reportSending = s.reportSending := rfl
@[simp] theorem State.setContext_freeCount (v : Context) : (s.setContext i v).freeCount = s.freeCount := rfl
@[simp] theorem State.position_setContext (v : Context) : (s.setContext i v).position j = s.position j := rfl
@[simp] theorem State.entry_setContext (v : Context) : (s.setContext i v).entry j = s.entry j := rfl
@[simp] theorem State.group_setContext (v : Context) : (s.setContext i v).group j = s.group j := rfl
@[simp] theorem State.channel_setContext (v : Context) : (s.setContext i v).channel j = s.channel j := rfl
@[simp] theorem State.highway_setContext (v : Context) : (s.setContext i v).highway j = s.highway j := rfl
@[simp] theorem State.setContext_setContext (v w : Context) : (s.setContext i v).setContext i w = s.setContext i w := by simp [State.setContext]
theorem State.context_setContext (v : Context) : (s.setContext i v).context j = if j = i then v else s.context j :=
  Table.get_set _ _ _ _ _
@[simp] theorem State.context_setContext_self (v : Context) : (s.setContext i v).context i = v := by simp [State.context_setContext]
theorem State.context_setContext_other (v : Context) {i j : Nat} (h : j ≠ i) : (s.setContext i v).context j = s.context j := by
  simp [State.context_setContext, h]

/-! ### setChannel -/

@[simp] theorem State.setChannel_pending (v : Channel) : (s.setChannel i v).pending = s.pending := rfl
@[simp] theorem State.setChannel_frameCount (v : Channel) : (s.setChannel i v).frameCount = s.frameCount := rfl
@[simp] theorem State.setChannel_framePrescale (v : Channel) : (s.setChannel i v).framePrescale = s.framePrescale := rfl
@[simp] theorem State.setChannel_secondCount (v : Channel) : (s.setChannel i v).secondCount = s.secondCount := rfl
@[simp] theorem State.setChannel_pulse (v : Channel) : (s.setChannel i v).pulse = s.pulse := rfl
@[simp] theorem State.setChannel_boundary (v : Channel) : (s.setChannel i v).boundary = s.boundary := rfl
@[simp] theorem State.setChannel_positions (v : Channel) : (s.setChannel i v).positions = s.positions := rfl
@[simp] theorem State.setChannel_entries (v : Channel) : (s.setChannel i v).entries = s.entries := rfl
@[simp] theorem State.setChannel_groups (v : Channel) : (s.setChannel i v).groups = s.groups := rfl
@[simp] theorem State.setChannel_contexts (v : Channel) : (s.setChannel i v).contexts = s.contexts := rfl
theorem State.setChannel_channels (v : Channel) : (s.setChannel i v).channels = Table.set {} s.channels i v := rfl
@[simp] theorem State.setChannel_highways (v : Channel) : (s.setChannel i v).highways = s.highways := rfl
@[simp] theorem State.setChannel_reserved (v : Channel) : (s.setChannel i v).reserved = s.reserved := rfl
@[simp] theorem State.setChannel_inFlight (v : Channel) : (s.setChannel i v).inFlight = s.inFlight := rfl
@[simp] theorem State.setChannel_completing (v : Channel) : (s.setChannel i v).completing = s.completing := rfl
@[simp] theorem State.setChannel_verifyQueue (v : Channel) : (s.setChannel i v).verifyQueue = s.verifyQueue := rfl
@[simp] theorem State.setChannel_verifyPause (v : Channel) : (s.setChannel i v).verifyPause = s.verifyPause := rfl
@[simp] theorem State.setChannel_pattern (v : Channel) : (s.setChannel i v).pattern = s.pattern := rfl
@[simp] theorem State.setChannel_pairBuffer (v : Channel) : (s.setChannel i v).pairBuffer = s.pairBuffer := rfl
@[simp] theorem State.setChannel_settings (v : Channel) : (s.setChannel i v).settings = s.settings := rfl
@[simp] theorem State.setChannel_reportQueue (v : Channel) : (s.setChannel i v).reportQueue = s.reportQueue := rfl
@[simp] theorem State.setChannel_reportPause (v : Channel) : (s.setChannel i v).reportPause = s.reportPause := rfl
@[simp] theorem State.setChannel_lostReports (v : Channel) : (s.setChannel i v).lostReports = s.lostReports := rfl
@[simp] theorem State.setChannel_reportSending (v : Channel) : (s.setChannel i v).reportSending = s.reportSending := rfl
@[simp] theorem State.setChannel_freeCount (v : Channel) : (s.setChannel i v).freeCount = s.freeCount := rfl
@[simp] theorem State.position_setChannel (v : Channel) : (s.setChannel i v).position j = s.position j := rfl
@[simp] theorem State.entry_setChannel (v : Channel) : (s.setChannel i v).entry j = s.entry j := rfl
@[simp] theorem State.group_setChannel (v : Channel) : (s.setChannel i v).group j = s.group j := rfl
@[simp] theorem State.context_setChannel (v : Channel) : (s.setChannel i v).context j = s.context j := rfl
@[simp] theorem State.highway_setChannel (v : Channel) : (s.setChannel i v).highway j = s.highway j := rfl
@[simp] theorem State.setChannel_setChannel (v w : Channel) : (s.setChannel i v).setChannel i w = s.setChannel i w := by simp [State.setChannel]
theorem State.channel_setChannel (v : Channel) : (s.setChannel i v).channel j = if j = i then v else s.channel j :=
  Table.get_set _ _ _ _ _
@[simp] theorem State.channel_setChannel_self (v : Channel) : (s.setChannel i v).channel i = v := by simp [State.channel_setChannel]
theorem State.channel_setChannel_other (v : Channel) {i j : Nat} (h : j ≠ i) : (s.setChannel i v).channel j = s.channel j := by
  simp [State.channel_setChannel, h]

/-! ### setHighway -/

@[simp] theorem State.setHighway_pending (v : Highway) : (s.setHighway i v).pending = s.pending := rfl
@[simp] theorem State.setHighway_frameCount (v : Highway) : (s.setHighway i v).frameCount = s.frameCount := rfl
@[simp] theorem State.setHighway_framePrescale (v : Highway) : (s.setHighway i v).framePrescale = s.framePrescale := rfl
@[simp] theorem State.setHighway_secondCount (v : Highway) : (s.setHighway i v).secondCount = s.secondCount := rfl
@[simp] theorem State.setHighway_pulse (v : Highway) : (s.setHighway i v).pulse = s.pulse := rfl
@[simp] theorem State.setHighway_boundary (v : Highway) : (s.setHighway i v).boundary = s.boundary := rfl
@[simp] theorem State.setHighway_positions (v : Highway) : (s.setHighway i v).positions = s.positions := rfl
@[simp] theorem State.setHighway_entries (v : Highway) : (s.setHighway i v).entries = s.entries := rfl
@[simp] theorem State.setHighway_groups (v : Highway) : (s.setHighway i v).groups = s.groups := rfl
@[simp] theorem State.setHighway_contexts (v : Highway) : (s.setHighway i v).contexts = s.contexts := rfl
@[simp] theorem State.setHighway_channels (v : Highway) : (s.setHighway i v).channels = s.channels := rfl
theorem State.setHighway_highways (v : Highway) : (s.setHighway i v).highways = Table.set {} s.highways i v := rfl
@[simp] theorem State.setHighway_reserved (v : Highway) : (s.setHighway i v).reserved = s.reserved := rfl
@[simp] theorem State.setHighway_inFlight (v : Highway) : (s.setHighway i v).inFlight = s.inFlight := rfl
@[simp] theorem State.setHighway_completing (v : Highway) : (s.setHighway i v).completing = s.completing := rfl
@[simp] theorem State.setHighway_verifyQueue (v : Highway) : (s.setHighway i v).verifyQueue = s.verifyQueue := rfl
@[simp] theorem State.setHighway_verifyPause (v : Highway) : (s.setHighway i v).verifyPause = s.verifyPause := rfl
@[simp] theorem State.setHighway_pattern (v : Highway) : (s.setHighway i v).pattern = s.pattern := rfl
@[simp] theorem State.setHighway_pairBuffer (v : Highway) : (s.setHighway i v).pairBuffer = s.pairBuffer := rfl
@[simp] theorem State.setHighway_settings (v : Highway) : (s.setHighway i v).settings = s.settings := rfl
@[simp] theorem State.setHighway_reportQueue (v : Highway) : (s.setHighway i v).reportQueue = s.reportQueue := rfl
@[simp] theorem State.setHighway_reportPause (v : Highway) : (s.setHighway i v).reportPause = s.reportPause := rfl
@[simp] theorem State.setHighway_lostReports (v : Highway) : (s.setHighway i v).lostReports = s.lostReports := rfl
@[simp] theorem State.setHighway_reportSending (v : Highway) : (s.setHighway i v).reportSending = s.reportSending := rfl
@[simp] theorem State.setHighway_freeCount (v : Highway) : (s.setHighway i v).freeCount = s.freeCount := rfl
@[simp] theorem State.position_setHighway (v : Highway) : (s.setHighway i v).position j = s.position j := rfl
@[simp] theorem State.entry_setHighway (v : Highway) : (s.setHighway i v).entry j = s.entry j := rfl
@[simp] theorem State.group_setHighway (v : Highway) : (s.setHighway i v).group j = s.group j := rfl
@[simp] theorem State.context_setHighway (v : Highway) : (s.setHighway i v).context j = s.context j := rfl
@[simp] theorem State.channel_setHighway (v : Highway) : (s.setHighway i v).channel j = s.channel j := rfl
@[simp] theorem State.setHighway_setHighway (v w : Highway) : (s.setHighway i v).setHighway i w = s.setHighway i w := by simp [State.setHighway]
theorem State.highway_setHighway (v : Highway) : (s.setHighway i v).highway j = if j = i then v else s.highway j :=
  Table.get_set _ _ _ _ _
@[simp] theorem State.highway_setHighway_self (v : Highway) : (s.setHighway i v).highway i = v := by simp [State.highway_setHighway]
theorem State.highway_setHighway_other (v : Highway) {i j : Nat} (h : j ≠ i) : (s.setHighway i v).highway j = s.highway j := by
  simp [State.highway_setHighway, h]

end Sys2Proof.Machine
end

