-- ==== Sys2Proof/Laws/Ops.lean ====
section
/-! SUPPORT. What each shared operation can do, said once: the queues, backoff, candidates, the close of a context, and the
end of an admission. -/

namespace Sys2Proof.Machine

/-! ### The Report Queue (R171 to R173) -/

/-- A join changes the queue, the pause and Lost Reports only. -/
theorem State.joinCell_frame (s : State) (level : Nat) (cell : OutCell) :
    s.joinCell level cell =
      { s with
        reportQueue := (s.joinCell level cell).reportQueue, reportPause := (s.joinCell level cell).reportPause
        lostReports := (s.joinCell level cell).lostReports } := by
  unfold State.joinCell
  split
  · rfl
  · split <;> rfl

/-- A report changes the queue, the pause and Lost Reports only. -/
theorem State.report_frame (s : State) (r : Report) :
    s.report r =
      { s with
        reportQueue := (s.report r).reportQueue, reportPause := (s.report r).reportPause
        lostReports := (s.report r).lostReports } := by
  unfold State.report
  split
  · exact State.joinCell_frame _ _ _
  · rfl

theorem SameReports.refl (s : State) : SameReports s s := ⟨rfl, rfl, rfl⟩

theorem SameReports.trans {s t u : State} (h : SameReports s t) (h' : SameReports t u) : SameReports s u :=
  ⟨h.1.trans h'.1, h.2.1.trans h'.2.1, h.2.2.trans h'.2.2⟩

theorem SameReports.symm {s t : State} (h : SameReports s t) : SameReports t s :=
  ⟨h.1.symm, h.2.1.symm, h.2.2.symm⟩

/-- A join reads nothing but what it changes. -/
theorem SameReports.joinCell {s t : State} (h : SameReports s t) (level : Nat) (cell : OutCell) :
    SameReports (s.joinCell level cell) (t.joinCell level cell) := by
  obtain ⟨hq, hp, hl⟩ := h
  unfold State.joinCell
  rw [hq, hp, hl]
  split
  · exact ⟨rfl, rfl, rfl⟩
  · split
    · exact ⟨rfl, rfl, rfl⟩
    · exact ⟨rfl, rfl, rfl⟩

/-- A report reads nothing but what it changes and the level settings. -/
theorem SameReports.report {s t : State} (h : SameReports s t) (hs : s.settings = t.settings) (r : Report) :
    SameReports (s.report r) (t.report r) := by
  unfold State.report
  rw [hs]
  split
  · exact h.joinCell _ _
  · exact h

/-! ### Line replies and backoff (R72, R73, R78) -/

/-- A reply changes one highway only. -/
theorem State.replyTo_frame (s : State) (p : Nat) (r : LineReply) :
    s.replyTo p r = { s with highways := (s.replyTo p r).highways } := rfl

/-- A reply reads the highways only. -/
theorem State.replyTo_congr {s t : State} (h : s.highways = t.highways) (p : Nat) (r : LineReply) :
    (s.replyTo p r).highways = (t.replyTo p r).highways := by
  have hp : s.highway (p / 120) = t.highway (p / 120) := by rw [State.highway, h]; rfl
  simp only [State.replyTo, State.setHighway, h, hp]

theorem State.waitWithBackoff_eq (s : State) (p : Nat) : s.waitWithBackoff p = s.repliedWithBackoff p .wait := rfl

theorem State.rejectWithBackoff_eq (s : State) (p : Nat) (reason : RejectReason) :
    s.rejectWithBackoff p reason = s.repliedWithBackoff p (.reject reason) := rfl

/-! ### Candidates (R58, R75, R95) -/

theorem State.removeCandidate_eq (s : State) (e p : Nat) : s.removeCandidate e p = s.candidateLeft e p := rfl

theorem State.position_candidateLeft (s : State) (e p q : Nat) :
    (s.candidateLeft e p).position q =
      if q = p then { s.position p with pending := none } else s.position q := by
  simp [State.candidateLeft, State.position_setPosition]

theorem State.entry_candidateLeft (s : State) (e p f : Nat) :
    (s.candidateLeft e p).entry f = if f = e then { s.entry e with candidate := none } else s.entry f := by
  simp [State.candidateLeft, State.entry_setEntry]

theorem Position.pendingWithout_none {e : Entry} (h : e.candidate = none) (pos : Position) (q : Nat) :
    pos.pendingWithout e q = pos.pending := by simp [Position.pendingWithout, Entry.candidateAt, h]

theorem Entry.candidateQueued_none {e : Entry} (h : e.candidate = none) : e.candidateQueued = false := by
  simp [Entry.candidateQueued, h]

/-- Without a candidate there is nothing to void. -/
theorem ItemsDropped.of_none {s t : State} {e : Nat} (h : (s.entry e).candidateQueued = false)
    (hv : t.verifyQueue = s.verifyQueue) (hf : t.inFlight = s.inFlight) (hc : t.completing = s.completing) :
    ItemsDropped s t e := by
  simp [ItemsDropped, h, hv, hf, hc]

/-- What dropping an entry's candidate does (R58). -/
theorem State.dropCandidate_spec (s : State) (e : Nat) : CandidateDropped s (s.dropCandidate e) e := by
  unfold State.dropCandidate
  cases hc : (s.entry e).candidate with
  | none =>
    refine ⟨?_, fun f _ => rfl, fun q => ?_, ItemsDropped.of_none (Entry.candidateQueued_none hc) rfl rfl rfl, rfl⟩
    · show s.entry e = { s.entry e with candidate := none }
      rw [← hc]
    · rw [Position.pendingWithout_none hc]
  | some c =>
    have hpos : ∀ q, (s.candidateLeft e c.position).position q =
        { s.position q with pending := (s.position q).pendingWithout (s.entry e) q } := by
      intro q
      rw [State.position_candidateLeft]
      by_cases hq : q = c.position
      · subst hq; simp [Position.pendingWithout, Entry.candidateAt, hc]
      · simp [Position.pendingWithout, Entry.candidateAt, hc, hq, Ne.symm hq]
    have hent : ∀ f, (s.candidateLeft e c.position).entry f =
        if f = e then { s.entry e with candidate := none } else s.entry f := State.entry_candidateLeft s e c.position
    cases hst : c.stage with
    | awaiting d =>
      have hq : (s.entry e).candidateQueued = false := by simp [Entry.candidateQueued, hc, hst]
      simp only [hst, State.removeCandidate_eq]
      exact ⟨by rw [hent, if_pos rfl], fun f hf => by rw [hent, if_neg hf], hpos, ItemsDropped.of_none hq rfl rfl rfl, rfl⟩
    | queued =>
      have hq : (s.entry e).candidateQueued = true := by simp [Entry.candidateQueued, hc, hst]
      simp only [hst, State.removeCandidate_eq]
      refine ⟨(hent e).trans (if_pos rfl), fun f hf => (hent f).trans (if_neg hf), hpos, ?_, rfl⟩
      simp only [ItemsDropped, hq, true_and]
      exact ⟨rfl, rfl, rfl⟩

/-! ### The close of a context (R120) -/

theorem State.entry_releaseContext (s : State) (j : Nat) (call : Call) (f : Nat) :
    (s.releaseContext j call).entry f =
      if f = call.entry then { s.entry call.entry with context := none } else s.entry f := by
  have h : ∀ (u : State) (l : List Nat), ({ u with reserved := l } : State).entry f = u.entry f := fun _ _ => rfl
  simp only [State.releaseContext, h, State.entry_setEntry, State.entry_setPosition, State.entry_setGroup, State.entry_setContext]

theorem State.position_releaseContext (s : State) (j : Nat) (call : Call) (q : Nat) :
    (s.releaseContext j call).position q =
      if q = call.position then { s.position call.position with context := none } else s.position q := by
  have h : ∀ (u : State) (l : List Nat), ({ u with reserved := l } : State).position q = u.position q := fun _ _ => rfl
  simp only [State.releaseContext, h, State.position_setEntry, State.position_setPosition, State.position_setGroup, State.position_setContext]

theorem State.context_releaseContext (s : State) (j : Nat) (call : Call) (k : Nat) :
    (s.releaseContext j call).context k =
      if k = j then { s.context j with call := none, staged := none, window := [] } else s.context k := by
  have h : ∀ (u : State) (l : List Nat), ({ u with reserved := l } : State).context k = u.context k := fun _ _ => rfl
  simp only [State.releaseContext, h, State.context_setEntry, State.context_setPosition, State.context_setGroup, State.context_setContext]

theorem State.group_releaseContext (s : State) (j : Nat) (call : Call) (g : Nat) :
    (s.releaseContext j call).group g =
      if g = (s.entry call.entry).group then
        { s.group (s.entry call.entry).group with inUse := (s.group (s.entry call.entry).group).inUse - 1 }
      else s.group g := by
  have h : ∀ (u : State) (l : List Nat), ({ u with reserved := l } : State).group g = u.group g := fun _ _ => rfl
  simp only [State.releaseContext, h, State.group_setEntry, State.group_setPosition, State.group_setGroup, State.group_setContext]

/-- Writes of four records and of the reserved list change nothing else. -/
theorem State.fourWrites_frame (s t : State) (j g p e : Nat) (c : Context) (gv : Group) (pv : Position) (ev : Entry)
    (l : List Nat)
    (ht : t = { (((s.setContext j c).setGroup g gv).setPosition p pv).setEntry e ev with reserved := l }) :
    t =
      { s with
        entries := t.entries, positions := t.positions, contexts := t.contexts, groups := t.groups, reserved := l } := by
  subst ht; simp only [State.setEntry, State.setPosition, State.setGroup, State.setContext]

theorem State.releaseContext_frame (s : State) (j : Nat) (call : Call) :
    s.releaseContext j call =
      { s with
        entries := (s.releaseContext j call).entries, positions := (s.releaseContext j call).positions
        contexts := (s.releaseContext j call).contexts, groups := (s.releaseContext j call).groups
        reserved := s.reserved.erase j } := by
  exact State.fourWrites_frame s (s.releaseContext j call) j _ _ _ _ _ _ _ _ rfl

/-- What a context's release leaves, in a state `r` that differs from it in the Report Queue only. -/
theorem State.releaseContext_spec (s r : State) (j : Nat) (call : Call)
    (hr : r =
      { s.releaseContext j call with
        reportQueue := r.reportQueue, reportPause := r.reportPause, lostReports := r.lostReports }) :
    (∀ f, r.entry f = if f = call.entry then { s.entry call.entry with context := none } else s.entry f) ∧
      (∀ q, r.position q =
        if q = call.position then { s.position call.position with context := none } else s.position q) ∧
      (∀ k, r.context k =
        if k = j then { s.context j with call := none, staged := none, window := [] } else s.context k) ∧
      (∀ g, r.group g =
        if g = (s.entry call.entry).group then
          { s.group (s.entry call.entry).group with inUse := (s.group (s.entry call.entry).group).inUse - 1 }
        else s.group g) ∧
      r =
        { s with
          entries := r.entries, positions := r.positions, contexts := r.contexts, groups := r.groups
          reserved := s.reserved.erase j, reportQueue := r.reportQueue, reportPause := r.reportPause
          lostReports := r.lostReports } := by
  have he := congrArg State.entries hr
  have hp := congrArg State.positions hr
  have hk := congrArg State.contexts hr
  have hg := congrArg State.groups hr
  refine ⟨fun f => ?_, fun q => ?_, fun k => ?_, fun g => ?_, ?_⟩
  · rw [State.entry, he]; exact s.entry_releaseContext j call f
  · rw [State.position, hp]; exact s.position_releaseContext j call q
  · rw [State.context, hk]; exact s.context_releaseContext j call k
  · rw [State.group, hg]; exact s.group_releaseContext j call g
  · rw [he, hp, hk, hg]
    refine hr.trans ?_
    rw [s.releaseContext_frame j call]

/-- What the close of an OPEN context does: it is released and CALL CLOSED is reported. -/
theorem State.closeContext_open (s : State) (j : Nat) (cause : CloseCause) (call : Call)
    (hcall : (s.context j).call = some call) :
    s.closeContext j cause = (s.releaseContext j call).report (.callClosed j call.position call.entry cause) := by
  rw [State.closeContext, hcall]

/-- What unbinding the home of an entry does (R36, R63). -/
theorem State.unbind_spec (s : State) (e p : Nat) (hhome : (s.entry e).home = some p) :
    s.unbind e =
      (s.setEntry e { s.entry e with home := none, refresh := none, rechallenge := none }).setPosition p
        (s.position p).withoutOwner := by
  simp [State.unbind, hhome]

/-! ### The end of an admission (R58, R63, R120) -/

/-- A close's frame followed by writes of an entry and a position. -/
theorem State.endAdmission_frame {s u t : State} {j : Nat}
    (hu : u =
      { s with
        entries := u.entries, positions := u.positions, contexts := u.contexts, groups := u.groups
        reserved := s.reserved.erase j, reportQueue := u.reportQueue, reportPause := u.reportPause
        lostReports := u.lostReports })
    (ht : t = { u with entries := t.entries, positions := t.positions }) :
    t =
      { s with
        entries := t.entries, positions := t.positions, contexts := t.contexts, groups := t.groups
        reserved := t.reserved, verifyQueue := t.verifyQueue, inFlight := t.inFlight, completing := t.completing
        highways := t.highways, reportQueue := t.reportQueue, reportPause := t.reportPause
        lostReports := t.lostReports } := by
  obtain ⟨⟩ := s
  obtain ⟨⟩ := u
  obtain ⟨⟩ := t
  simp only [State.mk.injEq] at hu ht ⊢
  simp_all

/-- What unbinding an entry's home and setting its state do (R36, R63). -/
theorem State.unbindTo_spec (u : State) (e p : Nat) (state : EntryState) (hhome : (u.entry e).home = some p) :
    ((u.unbind e).setEntryState e state).entry e =
        { u.entry e with state := state, home := none, refresh := none, rechallenge := none } ∧
      (∀ f, f ≠ e → ((u.unbind e).setEntryState e state).entry f = u.entry f) ∧
      ((u.unbind e).setEntryState e state).position p = (u.position p).withoutOwner ∧
      (∀ q, q ≠ p → ((u.unbind e).setEntryState e state).position q = u.position q) ∧
      (u.unbind e).setEntryState e state =
        { u with
          entries := ((u.unbind e).setEntryState e state).entries
          positions := ((u.unbind e).setEntryState e state).positions } := by
  rw [State.unbind_spec u e p hhome, State.setEntryState]
  refine ⟨?_, fun f hf => ?_, ?_, fun q hq => ?_, rfl⟩
  · simp
  · simp [State.entry_setEntry, hf]
  · simp
  · simp [State.position_setPosition, hq]

/-- The end of an admission without a call. -/
theorem State.endAdmission_idle (s t : State) (e p : Nat) (state : EntryState)
    (hcand : (s.entry e).candidate = none) (hx : (s.entry e).context = none) (hp : (s.position p).context = none)
    (h1 : t.entry e = { s.entry e with state := state, home := none, refresh := none, rechallenge := none })
    (h2 : ∀ f, f ≠ e → t.entry f = s.entry f) (h3 : t.position p = (s.position p).withoutOwner)
    (h4 : ∀ q, q ≠ p → t.position q = s.position q)
    (h5 : t = { s with entries := t.entries, positions := t.positions }) :
    AdmissionEnded s t e p state ∧ t.highways = s.highways ∧ SameReports t s := by
  have hctx : t.contexts = s.contexts := (congrArg State.contexts h5 :)
  have hgrp : t.groups = s.groups := (congrArg State.groups h5 :)
  refine ⟨⟨?_, h2, ?_, fun q hq => ?_, ⟨fun j => ?_, fun g => ?_, ?_⟩,
    ItemsDropped.of_none (Entry.candidateQueued_none hcand) ?_ ?_ ?_, ?_⟩, ?_, ?_, ?_, ?_⟩
  · simp [h1, hcand, hx]
  · simp [h3, Position.pendingWithout_none hcand, Position.withoutOwner, Position.silenced, hp]
  · simp [h4 q hq, Position.pendingWithout_none hcand]
  · simp [hx, State.context, hctx]
  · simp [hx, State.group, hgrp]
  · simp only [hx]; exact (congrArg State.reserved h5 :)
  · exact (congrArg State.verifyQueue h5 :)
  · exact (congrArg State.inFlight h5 :)
  · exact (congrArg State.completing h5 :)
  · rw [h5]
  · exact (congrArg State.highways h5 :)
  · exact (congrArg State.reportQueue h5 :)
  · exact (congrArg State.reportPause h5 :)
  · exact (congrArg State.lostReports h5 :)

/-- The end of an admission after the close of its context: `u` is the state after the close. -/
theorem State.endAdmission_call (s u t : State) (j : Nat) (call : Call) (state : EntryState)
    (hcand : (s.entry call.entry).candidate = none) (hx : (s.entry call.entry).context = some j)
    (hr : u =
      { s.releaseContext j call with
        reportQueue := u.reportQueue, reportPause := u.reportPause, lostReports := u.lostReports })
    (h1 : t.entry call.entry =
      { u.entry call.entry with state := state, home := none, refresh := none, rechallenge := none })
    (h2 : ∀ f, f ≠ call.entry → t.entry f = u.entry f)
    (h3 : t.position call.position = (u.position call.position).withoutOwner)
    (h4 : ∀ q, q ≠ call.position → t.position q = u.position q)
    (h5 : t = { u with entries := t.entries, positions := t.positions }) :
    AdmissionEnded s t call.entry call.position state ∧ t.highways = s.highways ∧ SameReports t u := by
  obtain ⟨hent, hposn, hcon, hgrp, hframe⟩ := State.releaseContext_spec s u j call hr
  clear hr
  have hue := (hent call.entry).trans (if_pos rfl)
  have hup := (hposn call.position).trans (if_pos rfl)
  have hctx : t.contexts = u.contexts := (congrArg State.contexts h5 :)
  have hgrps : t.groups = u.groups := (congrArg State.groups h5 :)
  refine ⟨⟨?_, fun f hf => ?_, ?_, fun q hq => ?_, ⟨fun k => ?_, fun g => ?_, ?_⟩,
    ItemsDropped.of_none (Entry.candidateQueued_none hcand) ?_ ?_ ?_, State.endAdmission_frame hframe h5⟩, ?_, ?_, ?_, ?_⟩
  · simp [h1, hue, hcand]
  · exact (h2 f hf).trans ((hent f).trans (if_neg hf))
  · simp [h3, hup, Position.pendingWithout_none hcand, Position.withoutOwner, Position.silenced]
  · simp [h4 q hq, Position.pendingWithout_none hcand, hposn, hq]
  · have : t.context k = u.context k := by rw [State.context, hctx]; rfl
    rw [this, hcon, hx]
    by_cases hk : k = j
    · subst hk; simp
    · simp [hk, Ne.symm hk]
  · have : t.group g = u.group g := by rw [State.group, hgrps]; rfl
    rw [this, hgrp, hx]
    by_cases hg : g = (s.entry call.entry).group
    · subst hg; simp
    · simp [hg]
  · simp only [hx]; exact (congrArg State.reserved h5 :).trans (congrArg State.reserved hframe :)
  · exact (congrArg State.verifyQueue h5 :).trans (congrArg State.verifyQueue hframe :)
  · exact (congrArg State.inFlight h5 :).trans (congrArg State.inFlight hframe :)
  · exact (congrArg State.completing h5 :).trans (congrArg State.completing hframe :)
  · exact (congrArg State.highways h5 :).trans (congrArg State.highways hframe :)
  · exact (congrArg State.reportQueue h5 :)
  · exact (congrArg State.reportPause h5 :)
  · exact (congrArg State.lostReports h5 :)

/-- A report after a context's release. -/
theorem SameReports.releaseContext (s : State) (j : Nat) (call : Call) (r : Report) :
    SameReports ((s.releaseContext j call).report r) (s.report r) := by
  have h := s.releaseContext_frame j call
  exact SameReports.report (t := s)
    ⟨(congrArg State.reportQueue h :), (congrArg State.reportPause h :), (congrArg State.lostReports h :)⟩
    (congrArg State.settings h :) _

/-- What closing an entry's context, unbinding its home and setting its state do, for an entry that holds no candidate and
whose context, position and home name one another. -/
theorem State.endAdmission_spec (s : State) (e p : Nat) (cause : CloseCause) (state : EntryState)
    (hhome : (s.entry e).home = some p) (hcand : (s.entry e).candidate = none)
    (hctx : ∀ j, (s.entry e).context = some j → ∃ c, (s.context j).call = some c ∧ c.position = p ∧ c.entry = e)
    (hpos : (s.position p).context ≠ none → (s.entry e).context ≠ none) :
    AdmissionEnded s (s.endAdmission e cause state) e p state ∧
      (s.endAdmission e cause state).highways = s.highways ∧
      SameReports (s.endAdmission e cause state) (s.reportClosed s e p cause) := by
  unfold State.endAdmission State.closeContextOf State.reportClosed
  cases hx : (s.entry e).context with
  | none =>
    have hp0 : (s.position p).context = none := by
      by_contra h; exact hpos h hx
    obtain ⟨h1, h2, h3, h4, h5⟩ := State.unbindTo_spec s e p state hhome
    exact State.endAdmission_idle s _ e p state hcand hx hp0 h1 h2 h3 h4 h5
  | some j =>
    obtain ⟨call, hcall, rfl, rfl⟩ := hctx j hx
    dsimp only
    rw [State.closeContext_open s j cause call hcall]
    have hrep := SameReports.releaseContext s j call (.callClosed j call.position call.entry cause)
    have hr := (s.releaseContext j call).report_frame (.callClosed j call.position call.entry cause)
    generalize (s.releaseContext j call).report (.callClosed j call.position call.entry cause) = u at hrep hr ⊢
    have hh : (u.entry call.entry).home = some call.position := by
      rw [(State.releaseContext_spec s u j call hr).1, if_pos rfl]; exact hhome
    obtain ⟨h1, h2, h3, h4, h5⟩ := State.unbindTo_spec u call.entry call.position state hh
    obtain ⟨ha, hb, hc⟩ := State.endAdmission_call s u _ j call state hcand hx hr h1 h2 h3 h4 h5
    exact ⟨ha, hb, hc.trans hrep⟩

/-- What dropping an entry's candidate and ending its admission do together (R58, R63, R120). -/
theorem State.dropAndEnd_spec (s : State) (e p : Nat) (cause : CloseCause) (state : EntryState)
    (hhome : (s.entry e).home = some p)
    (hctx : ∀ j, (s.entry e).context = some j → ∃ c, (s.context j).call = some c ∧ c.position = p ∧ c.entry = e)
    (hpos : (s.position p).context ≠ none → (s.entry e).context ≠ none) :
    AdmissionEnded s ((s.dropCandidate e).endAdmission e cause state) e p state ∧
      ((s.dropCandidate e).endAdmission e cause state).highways = s.highways ∧
      SameReports ((s.dropCandidate e).endAdmission e cause state) (s.reportClosed s e p cause) := by
  obtain ⟨hde, hdf, hdp, hdi, hdr⟩ := s.dropCandidate_spec e
  generalize s.dropCandidate e = d at hde hdf hdp hdi hdr
  have hdn : (d.entry e).candidate = none := by rw [hde]
  have hdc : ∀ j, d.context j = s.context j := fun j => by rw [hdr]; rfl
  have hdg : ∀ g, d.group g = s.group g := fun g => by rw [hdr]; rfl
  obtain ⟨⟨h1, h2, h3, h4, ⟨h5, h6, h7⟩, h8, h9⟩, h10, h11⟩ := State.endAdmission_spec d e p cause state
    (by rw [hde]; exact hhome) (by rw [hde]) (by rw [hde]; intro j hj; rw [hdc]; exact hctx j hj)
    (by rw [hde, hdp]; exact hpos)
  generalize d.endAdmission e cause state = t at h1 h2 h3 h4 h5 h6 h7 h8 h9 h10 h11
  have hq : (d.entry e).candidateQueued = false := by rw [hde]; exact Entry.candidateQueued_none rfl
  have hitems : t.verifyQueue = d.verifyQueue ∧ t.inFlight = d.inFlight ∧ t.completing = d.completing := by
    simpa [ItemsDropped, hq] using h8
  obtain ⟨i1, i2, i3⟩ := hitems
  refine ⟨⟨?_, ?_, ?_, ?_, ⟨?_, ?_, ?_⟩, ?_, ?_⟩, ?_, ?_⟩
  · rw [h1, hde]
  · intro f hf; rw [h2 f hf, hdf f hf]
  · rw [h3, Position.pendingWithout_none hdn, hdp]; rfl
  · intro q hqp; rw [h4 q hqp, Position.pendingWithout_none hdn, hdp]
  · intro j; rw [h5, hde, hdc]
  · intro g; rw [h6, hde, hdg]
  · rw [h7, hde, hdr]
  · unfold ItemsDropped at hdi ⊢; rw [i1, i2, i3]; exact hdi
  · rw [h9, hdr]
  · rw [h10, hdr]
  · refine h11.trans ?_
    unfold State.reportClosed
    rw [hde]
    cases (s.entry e).context with
    | none => rw [hdr]; exact ⟨rfl, rfl, rfl⟩
    | some j => exact SameReports.report (by rw [hdr]; exact ⟨rfl, rfl, rfl⟩) (by rw [hdr]) _

/-- In a state whose tables agree, the context of an entry and of its home name one another (R116). -/
theorem State.callsAgree_home {s : State} (h : s.callsAgree) {e p : Nat} (hhome : (s.entry e).home = some p)
    (hone : ∀ f, (s.entry f).state = .admitted → (s.entry f).home = some p → f = e) :
    (∀ j, (s.entry e).context = some j → ∃ c, (s.context j).call = some c ∧ c.position = p ∧ c.entry = e) ∧
      ((s.position p).context ≠ none → (s.entry e).context ≠ none) := by
  obtain ⟨hopen, hp, he, -⟩ := h
  constructor
  · intro j hj
    obtain ⟨c, hc, rfl⟩ := he e j hj
    refine ⟨c, hc, ?_, rfl⟩
    have := (hopen j c hc).2.2.2
    rw [hhome] at this
    exact (Option.some.inj this).symm
  · intro hx
    obtain ⟨j, hj⟩ := Option.ne_none_iff_exists'.1 hx
    obtain ⟨c, hc, rfl⟩ := hp p j hj
    obtain ⟨-, h2, h3, h4⟩ := hopen j c hc
    have := hone c.entry h3 h4
    rw [← this, h2]
    simp

end Sys2Proof.Machine
end

