-- ==== Sys2Proof/Tests/Slice0.lean ====
section
/-! SUPPORT. Tests: the checks of `Instr.wellFormed`, the worked examples of the manual, one or two small steps of each
command, and for each statement with hypotheses a state and operands that meet them. Expected values are the manual's or
worked by hand from its rules. -/

namespace Sys2Proof.Tests

open Sys2Proof Sys2Proof.Machine

/-! ### Well-formedness: one ill-formed command for each check -/

theorem test_wellFormed_lineCellDiscarded :
    (Instr.lineCellDiscarded 0 256 3).wellFormed = false ∧ (Instr.lineCellDiscarded 0 9 256).wellFormed = false ∧
      (Instr.lineCellDiscarded 0 4 119).wellFormed = false ∧ (Instr.lineCellDiscarded 0 0 120).wellFormed = false ∧
      (Instr.lineCellDiscarded 0 4 120).wellFormed = true ∧ (Instr.lineCellDiscarded 0 5 0).wellFormed = true := by decide

theorem test_wellFormed_lineCells :
    (Instr.signOn 0 120 7).wellFormed = false ∧ (Instr.signOn 0 119 4294967296).wellFormed = false ∧
      (Instr.answer 0 120 ⟨0, 0, 0, 0⟩).wellFormed = false ∧ (Instr.keepalive 0 120).wellFormed = false ∧
      (Instr.signOff 0 120).wellFormed = false ∧ (Instr.signOn 3 119 4294967295).wellFormed = true := by decide

theorem test_wellFormed_unknownKind :
    (Instr.unknownKind 0 19).wellFormed = false ∧ (Instr.unknownKind 0 256).wellFormed = false ∧
      (Instr.unknownKind 0 20).wellFormed = true := by decide

theorem test_wellFormed_entryCells :
    (Instr.loadExtension 0 4096 0 0).wellFormed = false ∧ (Instr.loadExtension 0 0 16 0).wellFormed = false ∧
      (Instr.loadExtension 0 0 0 4294967296).wellFormed = false ∧ (Instr.unloadExtension 0 65536).wellFormed = false ∧
      (Instr.secretHalf 0 .low 32768 0 0).wellFormed = false ∧ (Instr.forceSignOff 0 65536).wellFormed = false ∧
      (Instr.bar 0 65536).wellFormed = false ∧ (Instr.unbar 0 65536).wellFormed = false ∧
      (Instr.loadExtension 0 4095 15 4294967295).wellFormed = true := by decide

theorem test_wellFormed_groupCells :
    (Instr.setGroupLimits 0 256 0 0).wellFormed = false ∧ (Instr.setGroupLimits 0 0 65536 0).wellFormed = false ∧
      (Instr.setGroupLimits 0 0 0 256).wellFormed = false ∧ (Instr.setGroupTimes 0 256 0 0).wellFormed = false ∧
      (Instr.setGroupTimes 0 0 65536 0).wellFormed = false ∧ (Instr.setGroupTimes 0 0 0 65536).wellFormed = false := by
  decide

theorem test_wellFormed_callCells :
    (Instr.stagedHalf 0 .high 32768 0 0).wellFormed = false ∧ (Instr.openCall 0 65536 0 0).wellFormed = false ∧
      (Instr.openCall 0 0 65536 0).wellFormed = false ∧ (Instr.openCall 0 0 0 256).wellFormed = false ∧
      (Instr.closeCall 0 65536).wellFormed = false := by decide

theorem test_wellFormed_positionCells :
    (Instr.setPositionTreatment 0 65536 0 0).wellFormed = false ∧
      (Instr.setPositionTreatment 0 0 256 0).wellFormed = false ∧
      (Instr.setPositionTreatment 0 0 0 256).wellFormed = false ∧
      (Instr.setPositionGain 0 65536 0 0).wellFormed = false ∧ (Instr.setPositionGain 0 0 256 0).wellFormed = false ∧
      (Instr.setPositionGain 0 0 0 65536).wellFormed = false := by decide

theorem test_wellFormed_playoutCells :
    (Instr.loadPattern 0 65536 0 0 0 0).wellFormed = false ∧ (Instr.setPlayout 0 256 0 0 0 0).wellFormed = false ∧
      (Instr.setPlayout 0 0 256 0 0 0).wellFormed = false ∧ (Instr.setPlayout 0 0 0 4 0 0).wellFormed = false ∧
      (Instr.setPlayout 0 0 0 0 16384 0).wellFormed = false ∧ (Instr.setPlayout 0 0 0 0 0 65536).wellFormed = false ∧
      (Instr.stopPlayout 0 256).wellFormed = false := by decide

theorem test_wellFormed_deviceCells :
    (Instr.setDevice 0 256 0).wellFormed = false ∧ (Instr.setDevice 0 0 65536).wellFormed = false ∧
      (Instr.read 0 256 0 0).wellFormed = false ∧ (Instr.read 0 0 65536 0).wellFormed = false ∧
      (Instr.read 0 0 0 256).wellFormed = false ∧ (Instr.restartCalls 0 256).wellFormed = false ∧
      (Instr.restartCalls 0 2).wellFormed = false ∧ (Instr.restartCalls 0 1).wellFormed = true := by decide

/-! ### Cells written out from the layouts of R174 and R176 -/

/-- Group 3 above entry 88 in bytes 2 and 3: 3 × 4096 + 88 = 12376 = 48 × 256 + 88; identity 40,217,655 = 0265AC37H. -/
theorem test_decode_loadExtension :
    decodeManagementCell [1, 7, 48, 88, 0x02, 0x65, 0xAC, 0x37] = some (.loadExtension 7 88 3 40217655) := by rfl

/-- High half (bit 15) of entry 88, words 300 and 7. -/
theorem test_decode_secretHalf :
    decodeManagementCell [3, 9, 128, 88, 1, 44, 0, 7] = some (.secretHalf 9 .high 88 300 7) := by
  decide +kernel

/-- Context 9, position 277 = 1 × 256 + 21, loop flag 1. -/
theorem test_decode_openCall :
    decodeManagementCell [10, 1, 0, 9, 1, 21, 1, 0] = some (.openCall 1 9 277 1) := by decide

/-- Bytes 4 and 5 hold 40,000 = 9C40H: mode 2 and start 7232 (manual section 11.7). -/
theorem test_decode_setPlayout :
    decodeManagementCell [15, 1, 3, 2, 0x9C, 0x40, 0, 4] = some (.setPlayout 1 3 2 2 7232 4) := by decide

theorem test_decode_setPositionGain :
    decodeManagementCell [13, 2, 1, 21, 1, 1, 106, 0] = some (.setPositionGain 2 277 1 362) := by decide

theorem test_decode_restart :
    decodeManagementCell [19, 2, 2, 0, 0, 0, 0, 0] = some (.restartAll 2) ∧
      decodeManagementCell [19, 2, 1, 0, 0, 0, 0, 0] = some (.restartCalls 2 1) ∧
      decodeManagementCell [0, 2, 1, 0, 0, 0, 0, 0] = some .managementIdle ∧
      decodeManagementCell [20, 2, 1, 0, 0, 0, 0, 0] = some (.unknownKind 2 20) := by decide

/-- SIGN-ON at slot 37 with identity 40,217,655, and a kind-2 cell naming slot 120. -/
theorem test_decode_lineCells :
    decodeLineCell 2 [1, 37, 0x02, 0x65, 0xAC, 0x37, 0, 0] = some (.signOn 2 37 40217655) ∧
      decodeLineCell 2 [2, 37, 169, 172, 175, 178, 0, 0] = some (.answer 2 37 ⟨169, 172, 175, 178⟩) ∧
      decodeLineCell 2 [2, 120, 1, 2, 3, 4, 0, 0] = some (.lineCellDiscarded 2 2 120) ∧
      decodeLineCell 2 [9, 3, 1, 2, 3, 4, 0, 0] = some (.lineCellDiscarded 2 9 3) := by decide

/-! ### Sample arithmetic: the worked cases of chapter 2 -/

theorem test_gain_worked :
    gainCode 362 200 = 191 ∧ gainCode 512 200 = 185 ∧ gainCode 512 128 = 128 ∧ gainClamps 512 128 = true ∧
      gainCode 128 126 = 126 ∧ gainCode 256 127 = 127 ∧ gainCode 255 127 = 255 ∧ gainCode 0 0 = 255 ∧
      gainClamps 257 128 = true ∧ gainClamps 257 129 = false := by decide

/-- The key of the manual's examples. -/
def worked : Key := ⟨1000, 2, 300, 7⟩

theorem test_keystream_worked :
    keystream worked 70000 = 169 ∧ expectedResponse worked 70000 = ⟨169, 172, 175, 178⟩ ∧
      expectedResponse worked 16777214 = ⟨30, 33, 240, 243⟩ := by decide

theorem test_burst_worked :
    burstBytes 3072 1 = [27, 228, 0, 12, 0, 1, 165, 177] ∧ burstBytes 16776192 2 = [27, 228, 255, 252, 0, 2, 165, 161] ∧
      burstBytes 0 3 = [27, 228, 0, 0, 0, 3, 165, 167] := by decide

/-! ### States of the examples -/

/-- The state a command leads to. -/
def after (c : Instr) (s : State) : State :=
  match exec c s with
  | .next t => t
  | .fault _ | .refused _ => s

/-- The part with its frames running and nothing waiting to be sent. -/
def live : State := { State.reset with pulse := .running, reportQueue := [], frameCount := 500000 }

/-- Entry 88 of the manual's first sign-on: ABSENT, in group 3. -/
def telephone : Entry := { state := .absent, identity := 40217655, group := 3, secret := some worked }

/-- The part with entry 88 ABSENT. -/
def atRest : State := { live with entries := [(88, telephone)] }

/-- Entry 88 ADMITTED at position 277. -/
def admittedEntry : Entry := { telephone with state := .admitted, home := some 277, refresh := some 300 }

/-- The part with entry 88 ADMITTED at position 277. -/
def seated : State := { live with positions := [(277, { owner := some 88 })], entries := [(88, admittedEntry)] }

/-- Entry 88 with a candidate at position 277. -/
def candidateAt277 (kind : CandidateKind) (stage : Stage) : Candidate := ⟨277, kind, 70000, stage⟩

/-- Entry 88 with a FIRST candidate at position 277. -/
def asking (stage : Stage) : State :=
  { live with
    positions := [(277, { pending := some 88 })]
    entries := [(88, { telephone with candidate := some (candidateAt277 .first stage) })] }

/-- Entry 88 with a RENEW candidate at position 277. -/
def renewing (stage : Stage) : State :=
  { live with
    positions := [(277, { owner := some 88, pending := some 88 })]
    entries :=
      [(88, { admittedEntry with refresh := none, candidate := some (candidateAt277 .renew stage) })] }

/-- Entry 88 ADMITTED at position 5 with a MOVE candidate at position 277, which entry 90 owns. -/
def moving (stage : Stage) : State :=
  { live with
    positions := [(5, { owner := some 88 }), (277, { owner := some 90, pending := some 88 })]
    entries :=
      [(88, { admittedEntry with home := some 5, candidate := some (candidateAt277 .move stage) }),
        (90, { admittedEntry with identity := 11 })] }

/-- An item for entry 88 at position 277 and challenge 70000. -/
def itemOf (response : Response) : VerifyItem := ⟨88, 277, 70000, response, false⟩

/-- Context 9 of the manual's example call, OPEN at position 277. -/
def exampleCall : Context := { call := some ⟨277, 88, worked, worked⟩ }

/-- The part with the call of context 9 at position 277; `c` is the context's record. -/
def talking (c : Context) : State :=
  { live with
    positions := [(277, { owner := some 88, context := some 9, upGain := 362 })]
    entries := [(88, { admittedEntry with context := some 9 })]
    groups := [(3, { inUse := 1 })]
    contexts := [(9, c)] }

/-- The part with every event of a boundary still to be taken. -/
def atBoundary (s : State) : State :=
  { s with
    boundary :=
      { secondDue := true, takeDue := true, reportDue := true, lineDue := [0, 1, 2, 3], playoutDue := [0, 3, 15]
        txDue := [9] } }

/-- The states of the examples keep the laws between the tables. -/
theorem test_examples_agree :
    atRest.agrees ∧ seated.agrees ∧ (asking .queued).agrees ∧ (renewing .queued).agrees ∧ (moving .queued).agrees ∧
      (talking exampleCall).agrees := by
  refine ⟨?_, ?_, ?_, ?_, ?_, ?_⟩ <;> refine State.agrees_of_listed ?_ <;> refine ⟨?_, ?_, ?_, ?_, ?_, ?_, ?_⟩ <;> decide

theorem test_examples_wf :
    atRest.wf = true ∧ seated.wf = true ∧ (asking .queued).wf = true ∧ (renewing .queued).wf = true ∧
      (moving .queued).wf = true ∧ (talking exampleCall).wf = true := by decide

/-! ### Steps: the pins and the events of a boundary -/

theorem test_hardwareReset :
    (after .hardwareReset seated).entries = [] ∧ (after .hardwareReset seated).frameCount = 0 ∧
      (after .hardwareReset seated).reportQueue = [⟨0, .started⟩] := by decide

/-- STARTED leaves at the first frame pulse, which advances no count (R7, R14). -/
theorem test_firstFramePulse :
    (after .firstFramePulse State.reset).reportSending = .started ∧
      (after .firstFramePulse State.reset).frameCount = 0 ∧ (after .firstFramePulse State.reset).pulse = .running := by
  decide

/-- The Frame Count wraps from 16,777,215 to 0 (manual section 1.6). -/
theorem test_frameBoundary_wraps :
    (after (.frameBoundary false) { live with frameCount := 16777215 }).frameCount = 0 := by decide

/-- A slot not driven when the frame is cut short loses its code to 255; in a whole frame it was sent (R34). -/
theorem test_frameBoundary_cut :
    ((after (.frameBoundary true) { live with positions := [(5, { lineWaiting := 12 })] }).position 5).lineSending =
        255 ∧
      ((after (.frameBoundary false) { live with positions := [(5, { lineWaiting := 12 })] }).position 5).lineSending =
        12 := by decide +kernel

/-- A cell delivered while the pulse is absent has no effect (R13). -/
theorem test_framePulseAbsent :
    after (.keepalive 0 0) (after (.framePulseAbsent .withinFrame) seated) =
      after (.framePulseAbsent .withinFrame) seated := by decide

theorem test_secondCountAdvance_wraps :
    (after .secondCountAdvance { atBoundary live with secondCount := 65535, framePrescale := 7999 }).secondCount = 0 ∧
      (after .secondCountAdvance { atBoundary live with secondCount := 65535, framePrescale := 7999 }).framePrescale =
        0 := by decide

/-- With 256 calls open the Mixing Unit takes two items at a boundary (manual chapter 5, the storm). -/
theorem test_verificationTake_two :
    (after .verificationTake
      { atBoundary live with
        reserved := List.range 256, verifyQueue := List.replicate 3 (itemOf ⟨0, 0, 0, 0⟩) }).verifyQueue.length =
      1 := by decide +kernel

/-- The response (169, 172, 175, 178) at challenge 70000 is a MATCH; the entry is ADMITTED and WELCOME carries the
refresh interval of group 3 (manual chapters 2 and 5). -/
theorem test_verificationComplete_match :
    ((after .verificationComplete
        { asking .queued with
          completing := [⟨itemOf ⟨169, 172, 175, 178⟩, verdictOf (some worked) (itemOf ⟨169, 172, 175, 178⟩)⟩]
        }).position 277).owner = some 88 ∧
      ((after .verificationComplete
        { asking .queued with
          completing := [⟨itemOf ⟨169, 172, 175, 178⟩, verdictOf (some worked) (itemOf ⟨169, 172, 175, 178⟩)⟩]
        }).highway 2).queue = [.reply 37 (.welcome 300)] := by decide

/-- The right bytes in the wrong order are a MISMATCH: REJECT FAILED with hold-off 64 (R26, R78, R104). -/
theorem test_verificationComplete_mismatch :
    ((after .verificationComplete
        { asking .queued with
          completing := [⟨itemOf ⟨172, 169, 175, 178⟩, verdictOf (some worked) (itemOf ⟨172, 169, 175, 178⟩)⟩]
        }).entry 88).failures = 1 ∧
      ((after .verificationComplete
        { asking .queued with
          completing := [⟨itemOf ⟨172, 169, 175, 178⟩, verdictOf (some worked) (itemOf ⟨172, 169, 175, 178⟩)⟩]
        }).highway 2).queue = [.reply 37 (.reject .failed 64)] := by decide

theorem test_lineReplySend :
    ((after (.lineReplySend 2)
      { atBoundary live with
        highways := [(2, { queue := [.reply 5 (.lapsed .moved), .reply 6 (.wait 9)] })] }).highway 2).sending =
      .reply 5 (.lapsed .moved) := by decide

/-- The lowest level number present leaves first (R172). -/
theorem test_reportSend :
    (after .reportSend
      { atBoundary live with
        reportQueue := [⟨3, .started⟩, ⟨1, .report (.signedOff 1 2)⟩, ⟨1, .report (.signedOff 3 4)⟩] }).reportSending =
      .report (.signedOff 1 2) := by decide

/-- The full queue of manual section 11.6: ACCEPTED takes the place of the newest level-6 cell, SYNC ALIGNED is lost. -/
theorem test_fullReportQueue :
    let full : State :=
      { live with
        reportQueue := List.replicate 20 ⟨2, .started⟩ ++ List.replicate 30 ⟨3, .started⟩ ++
          List.replicate 14 ⟨6, .started⟩ }
    let joined := full.accept 1 (.closeCall 1 false)
    joined.reportQueue.length = 64 ∧ joined.lostReports = 1 ∧
      (joined.reportQueue.filter (fun c => decide (c.level = 6))).length = 13 ∧
      (joined.report (.syncAligned 1 2 3 0)).lostReports = 2 := by decide +kernel

/-- Line code 200 in a call at n = 70000: 104 in CLEAR, 168 muted (manual chapter 8). -/
theorem test_upstreamArrival_scrambled :
    ((after (.upstreamArrival 277 (.carried 200)) (talking { exampleCall with txFrame := 70000 })).position
        277).switchWaiting = 104 ∧
      ((after (.upstreamArrival 277 (.carried 200))
        ((talking { exampleCall with txFrame := 70000 }).setPosition 277
          { owner := some 88, context := some 9, requested := .mute })).position 277).switchWaiting = 168 := by decide

/-- Frames 1 and 7 of a call send burst bytes 228 and 164 (manual chapter 8); an arrival of frame 7 has that number though
no command has taken the advance of the boundary before it (R131). -/
theorem test_upstreamArrival_burst :
    let sent (s : State) := ((after (.upstreamArrival 277 (.carried 200)) s).position 277).switchWaiting
    sent (talking { exampleCall with txFrame := 1 }) = 228 ∧ sent (talking { exampleCall with txFrame := 7 }) = 164 ∧
      sent (atBoundary (talking { exampleCall with txFrame := 6 })) = 164 := by decide

/-- The code 104 sent at 70000 is released as 191 when the arrival is numbered 70008. -/
theorem test_downstreamArrival_descrambled :
    ((after (.downstreamArrival 277 (.carried 5))
        (talking
          { exampleCall with
            sync := .aligned, rxFrame := 70007
            window := ⟨104, false⟩ :: List.replicate 7 ⟨1, false⟩ })).position 277).lineWaiting = 191 := by decide

/-- The eighth byte of the burst at 3072 completes it: the arrival is numbered 3079 and HUNT ends (R146, R147). -/
theorem test_downstreamArrival_aligns :
    let t :=
      after (.downstreamArrival 277 (.carried 176))
        (talking
          { exampleCall with
            window := [1, 27, 228, 0, 12, 0, 0, 165].map (fun c => (⟨c, false⟩ : WindowCode)) })
    (t.context 9).sync = .aligned ∧ (t.context 9).rxFrame = 3079 := by decide

/-- The rekey boundary of tx frame number 3072 with S = 1024 and k = 3 (manual chapter 8). -/
theorem test_txFrameAdvance_rekey :
    let t :=
      after (.txFrameAdvance 9)
        { atBoundary (talking { exampleCall with txFrame := 3071, staged := some ⟨⟨1, 2, 3, 4⟩, false, false⟩ }) with
          settings := { rekeyMultiple := 3 } }
    (t.context 9).txGeneration = 1 ∧ (t.context 9).txFrame = 3072 ∧
      (t.context 9).staged = some ⟨⟨1, 2, 3, 4⟩, true, false⟩ := by decide

theorem test_txFrameAdvance_skip :
    let t :=
      after (.txFrameAdvance 9)
        { atBoundary (talking { exampleCall with txFrame := 6143, txGeneration := 1 }) with
          settings := { rekeyMultiple := 3 } }
    (t.context 9).skipReported = true ∧
      t.reportQueue.map QueuedCell.cell = [.report (.txRekeySkipped 9 277 1 6144 .noKey)] := by decide

/-- The counted cadence of manual chapter 10 at its last boundary. -/
theorem test_playoutAdvance_done :
    let t :=
      after (.playoutAdvance 3)
        { atBoundary live with
          channels := [(3, { start := 1000, length := 4, position := 1003, repeats := .count 1, status := .running })] }
    (t.channel 3).position = 1000 ∧ (t.channel 3).status = .countDone ∧
      t.reportQueue = [⟨6, .report (.playoutDone 3 1000 4)⟩] := by decide

theorem test_holdOffDeadline :
    ((after (.holdOffDeadline 277) { live with frameCount := 15784, positions := [(277, { holdOff := some 15784 })]
      }).position 277).holdOff = none := by decide

/-- The two orders of R77: a SIGN-ON one frame before the boundary that reaches the hold-off gets WAIT 1, and one after it
passes the check, whether or not HOLD_OFF_DEADLINE stands before it in the queue. -/
theorem test_holdOffDeadline_before_cells :
    let held (deadline : FrameNumber) : State :=
      { atRest with positions := [(277, { holdOff := some deadline, attempts := 1 })] }
    ((after (.signOn 2 37 40217655) (held 500001)).highway 2).queue = [.reply 37 (.wait 1)] ∧
      ((after (.signOn 2 37 40217655) (held 500000)).highway 2).queue = [.reply 37 (.challenge 500000)] ∧
      ((after (.signOn 2 37 40217655) (held 500000)).position 277).holdOff = none := by decide

theorem test_answerDeadline_renew :
    let t := after (.answerDeadline 88) (renewing (.awaiting 500000))
    (t.entry 88).state = .absent ∧ (t.highway 2).queue = [.reply 37 (.reject .timeout 0)] := by decide

theorem test_refreshLapse :
    let t := after (.refreshLapse 88) { seated with secondCount := 300 }
    (t.entry 88).state = .absent ∧ (t.position 277).owner = none ∧ (t.highway 2).queue = [.reply 37 (.lapsed .timeout)] := by
  decide

theorem test_rechallengeDeadline :
    let t :=
      after (.rechallengeDeadline 88)
        { seated with secondCount := 164, entries := [(88, { admittedEntry with rechallenge := some 164 })] }
    (t.entry 88).refresh = none ∧ (t.entry 88).rechallenge = none ∧ (t.position 277).pending = some 88 ∧
      (t.highway 2).queue = [.reply 37 (.challenge 500000)] := by decide

/-- Driving the switch-side slot puts 255 in place of the code, once in a frame (R34). -/
theorem test_waitingCodeSent :
    let s : State := { live with positions := [(277, { switchWaiting := 12 })] }
    let t := after (.waitingCodeSent 277 .switch) s
    (t.position 277).switchSending = 12 ∧ (t.position 277).switchWaiting = 255 ∧
      after (.waitingCodeSent 277 .switch) t = t := by decide

/-! ### Steps: line cells -/

theorem test_lineCells_without_effect :
    after (.lineIdle 1) seated = seated ∧ after (.lineCellDiscarded 1 9 3) seated = seated := by decide

/-- The first sign-on of manual chapter 5. -/
theorem test_signOn_first :
    let t := after (.signOn 2 37 40217655) atRest
    (t.entry 88).candidate = some ⟨277, .first, 500000, .awaiting 516000⟩ ∧ (t.position 277).pending = some 88 ∧
      (t.highway 2).queue = [.reply 37 (.challenge 500000)] := by decide

/-- T2 of the storm: WAIT 64 under the pause, then WAIT 63 one frame later with the attempt count unchanged. -/
theorem test_signOn_wait :
    let t := after (.signOn 3 5 1) { atRest with frameCount := 1000000, verifyPause := true }
    let u := after (.signOn 3 5 1) { t with frameCount := 1000001 }
    (t.position 365).holdOff = some 1000064 ∧ (t.position 365).attempts = 1 ∧ (u.position 365).attempts = 1 ∧
      (u.highway 3).queue = [.reply 5 (.wait 64), .reply 5 (.wait 63)] := by decide

/-- The ANSWER of the first sign-on: an item with the candidate's challenge, and no deadline left. -/
theorem test_answer :
    let t := after (.answer 2 37 ⟨169, 172, 175, 178⟩) (asking (.awaiting 516000))
    t.verifyQueue = [⟨88, 277, 70000, ⟨169, 172, 175, 178⟩, false⟩] ∧
      ((t.entry 88).candidate.map Candidate.stage) = some .queued ∧ t.highways = [] := by decide

theorem test_answer_pause :
    (after (.answer 2 37 ⟨1, 2, 3, 4⟩)
      { asking (.awaiting 516000) with verifyQueue := List.replicate 23 (itemOf ⟨0, 0, 0, 0⟩) }).verifyPause = true := by
  decide +kernel

theorem test_keepalive :
    ((after (.keepalive 2 37) { seated with secondCount := 65400 }).entry 88).refresh = some 164 ∧
      ((after (.keepalive 2 36) seated).highway 2).queue = [.reply 36 (.reject .notSignedOn 0)] := by decide

theorem test_signOff :
    let t := after (.signOff 2 37) (talking exampleCall)
    (t.entry 88).state = .absent ∧ (t.context 9).call = none ∧ (t.group 3).inUse = 0 ∧
      (t.highway 2).queue = [.reply 37 (.lapsed .signedOff)] := by decide

/-! ### Steps: management cells -/

theorem test_management_idle_unknown :
    after .managementIdle seated = seated ∧
      (after (.unknownKind 7 20) live).reportQueue = [⟨0, .refused 7 20 .unknownKind⟩] := by decide

/-- A changed identity takes the secret away; a bar stands (R57). -/
theorem test_loadExtension :
    let t := after (.loadExtension 7 88 2 12) { live with entries := [(88, { telephone with state := .barred })] }
    (t.entry 88).secret = none ∧ (t.entry 88).state = .barred ∧ (t.entry 88).group = 2 := by decide

theorem test_unloadExtension :
    ((after (.unloadExtension 7 88) seated).entry 88).state = .unloaded ∧
      ((after (.unloadExtension 7 88) seated).highway 2).queue = [.reply 37 (.lapsed .forced)] := by decide

/-- The two halves in either order give the four words in order (R166). -/
theorem test_secretHalf :
    let t := after (.secretHalf 1 .high 88 300 7) atRest
    let u := after (.secretHalf 2 .low 88 1000 2) t
    (t.entry 88).secret = none ∧ (u.entry 88).secret = some worked ∧ u.pairBuffer = none := by decide

theorem test_forceSignOff :
    ((after (.forceSignOff 7 88) seated).entry 88).state = .absent ∧
      (after (.forceSignOff 7 88) atRest).reportQueue = [⟨0, .refused 7 4 .notAdmitted⟩] := by decide

theorem test_bar :
    ((after (.bar 7 88) (talking exampleCall)).entry 88).state = .barred ∧
      ((after (.bar 7 88) (talking exampleCall)).reportQueue.map QueuedCell.cell) =
        [.accepted 7 (.entryCommand .bar 88), .report (.callClosed 9 277 88 .barred)] := by decide

theorem test_unbar :
    ((after (.unbar 7 88) { live with entries := [(88, { telephone with state := .barred, failures := 3 })] }).entry
        88).failures = 0 ∧
      (after (.unbar 7 88) seated).reportQueue = [⟨0, .refused 7 6 .notBarred⟩] := by decide

/-- A budget below the in-use count is applied as that count, and a failure limit of 0 as 1 (R67). -/
theorem test_setGroupLimits :
    let t := after (.setGroupLimits 7 3 0 0) (talking exampleCall)
    (t.group 3).budget = 1 ∧ (t.group 3).failureLimit = 1 := by decide

theorem test_setGroupTimes :
    let t := after (.setGroupTimes 7 3 5000 40000) live
    (t.group 3).refresh = 4095 ∧ (t.group 3).rechallenge = 32767 := by decide

theorem test_stagedHalf :
    let t := after (.stagedHalf 1 .low 9 1000 2) live
    let u := after (.stagedHalf 2 .high 9 300 7) t
    (u.context 9).staged = some ⟨worked, false, false⟩ := by decide

/-- A half for another target breaks the pair, reported after the answer (R166, R167). -/
theorem test_stagedHalf_breaks :
    (after (.stagedHalf 2 .high 9 300 7) (after (.secretHalf 1 .low 88 1 2) atRest)).reportQueue.map QueuedCell.cell =
      [.accepted 1 (.secretHalf 88 .low false), .accepted 2 (.stagedHalf 9 .high false),
        .report (.pairBroken (.secret 88) .low)] := by decide

/-- A call opened after the upstream arrival sends burst byte 1, 27, in place of the clear code (R37). -/
theorem test_openCall :
    let t :=
      after (.openCall 7 9 277 0)
        { seated with
          positions := [(277, { owner := some 88, upTaken := true, switchWaiting := 191 })]
          contexts := [(9, { staged := some ⟨worked, false, false⟩ })] }
    (t.context 9).call = some ⟨277, 88, worked, worked⟩ ∧ (t.position 277).switchWaiting = 27 ∧
      (t.group 3).inUse = 1 := by decide

theorem test_closeCall :
    let t := after (.closeCall 7 9) (talking exampleCall)
    (t.context 9).call = none ∧ (t.position 277).context = none ∧
      t.reportQueue.map QueuedCell.cell =
        [.accepted 7 (.closeCall 9 true), .report (.callClosed 9 277 88 .requested)] := by decide

theorem test_setPositionTreatment :
    ((after (.setPositionTreatment 7 5 0 15)
        { live with positions := [(5, { requested := .switchLoop, switchWaiting := 9 })] }).position 5).switchWaiting =
      255 ∧
      (after (.setPositionTreatment 7 277 3 0) (talking exampleCall)).reportQueue = [⟨0, .refused 7 12 .inCall⟩] := by
  decide

theorem test_setPositionGain :
    let t := after (.setPositionGain 7 277 3 600) { live with positions := [(277, { upClamps := 4, downClamps := 5 })] }
    (t.position 277).upGain = 512 ∧ (t.position 277).downGain = 512 ∧ (t.position 277).upClamps = 0 ∧
      (t.position 277).downClamps = 0 := by decide

theorem test_loadPattern :
    let t := after (.loadPattern 7 8188 213 149 21 255) live
    t.pattern = [(8188, 213), (8189, 149), (8190, 21)] ∧
      (after (.loadPattern 7 8189 1 2 3 4) live).reportQueue = [⟨0, .refused 7 14 .badIndex⟩] := by decide +kernel

/-- A STOPPED channel started in a frame is heard at its start in that frame and at its start and one in the next
(R158, R160, R162). -/
theorem test_setPlayout_next_frame :
    let t := after (.setPlayout 7 5 3 0 2000 4) (after (.frameBoundary false) live)
    let u := after (.playoutAdvance 5) (after (.frameBoundary false) t)
    (t.channel 5).position = 2000 ∧ (u.channel 5).position = 2001 := by decide +kernel

/-- Start 2000 and length 8000 are clamped to 6192 (manual chapter 10). -/
theorem test_setPlayout :
    let t := after (.setPlayout 7 5 3 1 2000 8000) live
    (t.channel 5).length = 6192 ∧ (t.channel 5).status = .running ∧ (t.channel 5).position = 2000 := by decide +kernel

theorem test_stopPlayout :
    let s : State := { live with channels := [(3, { start := 1000, length := 4, position := 1003, status := .running })] }
    let t := after (.stopPlayout 7 3) s
    (t.channel 3).status = .stopped ∧ (t.channel 3).position = 1003 ∧
      t.reportQueue = [⟨0, .accepted 7 (.stopPlayout 3 .running)⟩] := by decide +kernel

theorem test_setDevice :
    (after (.setDevice 7 3 9) live).settings.missLimit = 7 ∧
      (after (.setDevice 7 1 300) live).reportQueue = [⟨0, .refused 7 17 .badValue⟩] ∧
      (after (.setDevice 7 2 3) (talking exampleCall)).reportQueue = [⟨0, .refused 7 17 .inUse⟩] := by decide

/-- Page 1 part 0 of entry 88: ADMITTED is 2, the secret is present, the identity in four bytes (R177). -/
theorem test_read :
    (after (.read 7 1 88 0) seated).reportQueue = [⟨0, .answer 7 [2, 1, 0x02, 0x65, 0xAC, 0x37]⟩] ∧
      (after (.read 7 9 0 0) live).reportQueue = [⟨0, .answer 7 [0x07, 0xA1, 0x20, 0, 0, 0]⟩] := by decide +kernel

/-- Page 2 one frame before an answer deadline shows 1 frame left, and after the boundary that reaches it shows no
candidate: a present deadline never shows 0 (R12). -/
theorem test_read_deadline :
    let shown (stage : Stage) := (after (.read 7 2 88 0) (asking stage)).reportQueue.map QueuedCell.cell
    shown (.awaiting 500001) = [.answer 7 [1, 0, 1, 21, 0, 1]] ∧
      shown (.awaiting 500000) = [.answer 7 [0, Config.freeByte 0, 255, 255, 0, 0]] := by
  exact ⟨by decide +kernel, by rfl⟩

theorem test_restartCalls :
    let t := after (.restartCalls 7 1) (talking exampleCall)
    (t.context 9).call = none ∧ (t.entry 88).state = .admitted ∧
      t.reportQueue.map QueuedCell.cell = [.report (.restarted .calls 1), .accepted 7 (.restart .calls)] := by decide

theorem test_restartAll :
    let t := after (.restartAll 7) (talking exampleCall)
    (t.context 9).call = none ∧ (t.entry 88).state = .absent ∧ (t.position 277).owner = none ∧
      (t.position 277).upGain = 362 := by decide

/-- The command at the front is taken; an empty queue idles (assumption 1). -/
theorem test_step :
    step { live with pending := [.managementIdle, .lineIdle 0] } = .next { live with pending := [.lineIdle 0] } ∧
      step live = .next live := ⟨rfl, rfl⟩

/-! ### Witnesses: for each statement with hypotheses, a state and operands that meet them, clause by clause -/

/-- The states of the examples are in a frame whose boundary is done. -/
theorem inFrame_live : live.inFrame := State.inFrame_of_listed rfl (by unfold State.listedQuiet; decide)
theorem inFrame_atRest : atRest.inFrame := State.inFrame_of_listed rfl (by unfold State.listedQuiet; decide)
theorem inFrame_seated : seated.inFrame := State.inFrame_of_listed rfl (by unfold State.listedQuiet; decide)
theorem inFrame_asking : (asking .queued).inFrame := State.inFrame_of_listed rfl (by unfold State.listedQuiet; decide)
theorem inFrame_renewing : (renewing .queued).inFrame :=
  State.inFrame_of_listed rfl (by unfold State.listedQuiet; decide)
theorem inFrame_talking : (talking exampleCall).inFrame :=
  State.inFrame_of_listed rfl (by unfold State.listedQuiet; decide)

/-- The laws of the examples, one by one. -/
theorem agrees_seated : seated.agrees := test_examples_agree.2.1
theorem agrees_asking : (asking .queued).agrees := test_examples_agree.2.2.1
theorem agrees_renewing : (renewing .queued).agrees := test_examples_agree.2.2.2.1
theorem agrees_moving : (moving .queued).agrees := test_examples_agree.2.2.2.2.1
theorem agrees_talking : (talking exampleCall).agrees := test_examples_agree.2.2.2.2.2

theorem witness_StepRunsFrontCommand :
    ({ live with pending := [.lineIdle 0] } : State).pending = [.lineIdle 0] ∧ live.pending = [] := ⟨rfl, rfl⟩

/-- Slots 0 and 119 are the first and the last of a highway. -/
theorem witness_FirstPulseBeginsFrame :
    State.reset.wf = true ∧ State.reset.pulse = .awaiting ∧
      (∃ t, exec .hardwareReset State.reset = .next t) ∧ (0 : Nat) < 120 ∧ 119 < 120 :=
  ⟨by decide, rfl, ⟨_, rfl⟩, by decide, by decide⟩

theorem witness_AbsentPulseFreezesThePart :
    live.pulse = .running ∧ ({ live with pulse := .absent .afterFrame } : State).pulse = .absent .afterFrame ∧
      Instr.keepalive 0 0 ≠ .hardwareReset ∧ Instr.keepalive 0 0 ≠ .firstFramePulse ∧
      ∀ cut, Instr.keepalive 0 0 ≠ .frameBoundary cut := by
  refine ⟨rfl, rfl, ?_, ?_, ?_⟩ <;> simp

/-- A running part without a deadline is quiet, whatever its pulse and its prescale. -/
theorem quiet_live (pulse : Pulse) (n : Nat) : ({ live with pulse := pulse, framePrescale := n } : State).quiet :=
  ⟨rfl, rfl, fun _ => by simp [State.position, live, State.reset], fun _ c h => by
    simp [State.entry, live, State.reset] at h, fun _ => by simp [State.entry, live, State.reset],
    fun _ => by simp [State.entry, live, State.reset]⟩

/-- A cut-short frame that owes positions 0 and 479 an arrival each. -/
def owing : State := { live with boundary := { cutShort := true, suppliedUp := [0, 479], suppliedDown := [479] } }

/-- Two positions whose hold-offs stand at the Frame Count, with nothing else owed but the take of the management cell. -/
def holding : State :=
  { live with
    positions := [(5, { holdOff := some 500000 }), (277, { holdOff := some 500000 })]
    boundary := { reportDue := true } }

theorem agrees_owing : owing.agrees ∧ holding.agrees := by
  refine ⟨?_, ?_⟩ <;> refine State.agrees_of_listed ?_ <;> refine ⟨?_, ?_, ?_, ?_, ?_, ?_, ?_⟩ <;> decide

/-- Events that are next: the first supplied arrival, the Second Count, the lowest hold-off. -/
theorem nextDue_examples :
    owing.nextDue (.upstreamArrival 0 .supplied) ∧
      (atBoundary (talking exampleCall)).nextDue .secondCountAdvance ∧ holding.nextDue (.holdOffDeadline 5) :=
  ⟨rfl, ⟨⟨rfl, rfl⟩, rfl⟩, ⟨⟨rfl, rfl⟩, rfl, rfl, rfl⟩, rfl, fun k hk h => by
    have h5 : ¬ 5 = k := fun he => absurd hk (by rw [← he]; decide)
    have h277 : ¬ 277 = k := fun he => absurd hk (by rw [← he]; decide)
    simp [State.holdOffDue, holding, State.position, Table.get_cons, h5, h277] at h⟩

theorem witness_BoundaryEndsAndBeginsFrame :
    live.wf = true ∧ live.quiet ∧ live.pulse = .running ∧
      ({ live with pulse := .absent .afterFrame, framePrescale := 7999 } : State).quiet ∧
      ({ live with pulse := .absent .withinFrame, framePrescale := 7998 } : State).quiet ∧
      (atBoundary (talking exampleCall)).wf = true ∧ (atBoundary (talking exampleCall)).agrees ∧
      (atBoundary (talking exampleCall)).pulse = .running ∧
      (atBoundary (talking exampleCall)).nextDue .secondCountAdvance ∧
      (owing.wf = true ∧ owing.agrees ∧ owing.pulsed ∧ owing.nextDue (.upstreamArrival 0 .supplied)) ∧
      (holding.wf = true ∧ holding.agrees ∧ holding.pulsed ∧ holding.nextDue (.holdOffDeadline 5)) :=
  ⟨by decide, quiet_live .running 0, rfl, quiet_live _ _, quiet_live _ _, by decide, agrees_talking, rfl,
    nextDue_examples.2.1, ⟨by decide, agrees_owing.1, rfl, nextDue_examples.1⟩,
    ⟨by decide, agrees_owing.2, rfl, nextDue_examples.2.2⟩⟩

/-- The prescale at 0, at 7998 and at 7999. -/
theorem witness_SecondCountsEightThousandFrames :
    (atBoundary live).pulsed ∧ (atBoundary live).boundary.secondDue = true ∧ live.boundary.secondDue = false ∧
      (0 : Nat) < 8000 ∧ 7999 < 8000 ∧ ({ live with framePrescale := 7999 } : State).wf = true ∧
      ({ live with framePrescale := 7999 } : State).quiet ∧ live.pulse = .running :=
  ⟨rfl, rfl, rfl, by decide, by decide, by decide, quiet_live .running 7999, rfl⟩

theorem witness_SlotsSendAndArrivalsAreSupplied :
    owing.pulsed ∧ 277 ∉ owing.boundary.suppliedUp ∧ 277 ∉ owing.boundary.suppliedDown ∧
      owing.boundary.suppliedUp.Nodup ∧ owing.boundary.suppliedDown.Nodup ∧ 0 ∉ owing.boundary.suppliedDown ∧
      (∃ u, exec (.upstreamArrival 479 .supplied) owing = .next u) ∧
      (∃ u, exec (.downstreamArrival 277 .supplied) owing = .next u) ∧
      (∃ u, exec (.upstreamArrival 479 .supplied) owing = .next u ∨ exec (.downstreamArrival 479 .supplied) owing = .next u) ∧
      isCell (.signOn 3 119 7) = true ∧ isCell (.read 7 9 0 0) = true ∧ (atBoundary (talking exampleCall)).wf = true ∧
      (atBoundary (talking exampleCall)).agrees ∧ (atBoundary (talking exampleCall)).pulsed :=
  ⟨rfl, by decide, by decide, by decide, by decide, by decide, ⟨_, rfl⟩, ⟨_, rfl⟩,
    ⟨_, .inl rfl⟩, by decide, rfl, by decide, agrees_talking, rfl⟩

/-- A cell to be sent again and none; a report due and none. -/
theorem witness_OutboundCellsLeaveAtBoundary :
    (atBoundary live).pulsed ∧ 0 ∈ (atBoundary live).boundary.lineDue ∧ 3 ∈ (atBoundary live).boundary.lineDue ∧
      3 ∉ live.boundary.lineDue ∧ (atBoundary live).wf = true ∧ (atBoundary live).boundary.reportDue = true ∧
      live.wf = true ∧ live.boundary.reportDue = false ∧ live.pulse = .running ∧ (0 : Nat) < 120 ∧ 119 < 120 ∧
      (7 : Nat) < 8 ∧ (3 : Nat) ≠ 0 ∧ 120 ≤ 120 :=
  ⟨rfl, by decide, by decide, by decide, by decide, rfl, by decide, rfl, rfl, by decide, by decide, by decide, by decide,
    by decide⟩

/-- A Report Queue of `n` cells at one level. -/
def queueing (n level : Nat) : State := { live with reportQueue := List.replicate n ⟨level, .started⟩ }

/-- Queues one cell below their capacity and at it, with a cell of a greater level present and without. -/
theorem witness_QueuesTakeOrDropCells :
    (119 : Nat) < 120 ∧
      (({ live with highways := [(2, { queue := List.replicate 15 .idle })] } : State).highway 2).queue.length < 16 ∧
      16 ≤ (({ live with highways := [(2, { queue := List.replicate 16 .idle })] } : State).highway 2).queue.length ∧
      (queueing 63 6).reportQueue.length < 64 ∧ 64 ≤ (queueing 64 6).reportQueue.length ∧
      (∃ d ∈ (queueing 64 6).reportQueue, 5 < d.level) ∧ (∀ d ∈ (queueing 64 6).reportQueue, d.level ≤ 6) ∧
      live.settings.levels[(ReportKind.playoutDone).place] < 7 ∧
      7 ≤ ({ live with settings := { levels := Vector.replicate 20 7 } } : State).settings.levels[
        (ReportKind.playoutDone).place] := by
  refine ⟨by decide, by decide, by decide, by decide, by decide, ?_, ?_, by decide, by decide⟩
  · exact ⟨⟨6, .started⟩, by simp [queueing], by decide⟩
  · intro d hd
    simp [queueing] at hd
    simp [hd]

/-- Magnitudes 0 and 8031, at the ends of step 0 of chord 0 and of step 15 of chord 7; values beyond full scale. -/
theorem witness_CodesEncodeAndDecode :
    ((0 : Nat) < 8 ∧ 0 < 16 ∧ (16 + 0) * 2 ^ (0 + 1) ≤ 0 + 33 ∧ 0 + 33 < (17 + 0) * 2 ^ (0 + 1) ∧ 0 ≤ 8031) ∧
      ((7 : Nat) < 8 ∧ 15 < 16 ∧ (16 + 15) * 2 ^ (7 + 1) ≤ 8031 + 33 ∧ 8031 + 33 < (17 + 15) * 2 ^ (7 + 1)) ∧
      (8031 : Int) < 8032 ∧ (-8032 : Int) < -8031 ∧ (255 : Nat) ≠ 256 ∧ linearValue 127 = 0 ∧ linearValue 128 ≠ 0 ∧
      0 + 33 = (2 * (0 % 16) + 33) * 2 ^ (0 / 16) ∧ 8031 + 33 = (2 * (127 % 16) + 33) * 2 ^ (127 / 16) := by decide

theorem witness_GainRoundsToNearest :
    ((0 : Nat) ≤ 512 ∧ (0 : Nat) ≠ 256) ∧ ((512 : Nat) ≤ 512 ∧ (512 : Nat) ≠ 256) ∧
      0 < linearValue 128 * (512 : Nat) ∧ linearValue 0 * (512 : Nat) < 0 ∧ linearValue 255 * (512 : Nat) = 0 := by decide

/-- Frame number 70000 is 368 beyond a multiple of the Sync Span; the receive side numbers its release 70000. -/
theorem witness_ScramblingIsUndone :
    let c : Context := { exampleCall with txFrame := 70000 }
    let d : Context := { exampleCall with rxFrame := 70007, sync := .aligned }
    8 ≤ c.txFrame.toNat % 1024 ∧ d.rxFrame + 1 - 8 = c.txFrame ∧ d.sync = .aligned ∧ 65521 ≤ (65521 : KeyWord).toNat := by
  decide

theorem witness_BurstFoundExactlyWhenSent :
    isSyncSpan 256 = true ∧ isSyncSpan 8192 = true ∧ (7 : Nat) < 8 ∧ (16776192 : FrameNumber).toNat % 1024 = 0 ∧
      (16776199 : FrameNumber) = 16776192 + BitVec.ofNat 24 7 := by decide

theorem witness_MixingUnitVerifies :
    (atBoundary live).pulsed ∧ (atBoundary live).boundary.takeDue = true ∧ live.boundary.takeDue = false ∧
      verdictOf (some worked) (itemOf ⟨169, 172, 175, 178⟩) = .matched ∧
      verdictOf (some worked) (itemOf ⟨169, 172, 175, 179⟩) ≠ .matched := by
  refine ⟨rfl, rfl, rfl, ?_, ?_⟩ <;> decide

/-- A part whose boundary completes one item or two, with the Second Count due and without. -/
def completing (items : List FlightItem) (due : Bool) : State :=
  { asking .queued with completing := items, boundary := { secondDue := due } }

/-- An item of entry 88 with an outcome. -/
def decided (verdict : Verdict) : FlightItem := ⟨itemOf ⟨0, 0, 0, 0⟩, verdict⟩

theorem witness_ItemsCompleteInOrder :
    (completing [] false).pulsed ∧ (completing [] false).completing = [] ∧
      (completing [decided .matched] false).completing = [decided .matched] ∧
      (completing [decided .matched, decided .mismatch] true).completing = [decided .matched, decided .mismatch] ∧
      (completing [decided .matched] false).boundary.secondDue = false ∧
      (completing [decided .matched] true).boundary.secondDue = true ∧
      (∃ u, exec .secondCountAdvance (completing [decided .matched] true) = .next u) ∧
      ({ itemOf ⟨0, 0, 0, 0⟩ with isVoid := true } : VerifyItem).isVoid = true :=
  ⟨rfl, rfl, rfl, rfl, rfl, rfl, ⟨_, rfl⟩, rfl⟩

/-- Entry 88 with a FIRST candidate at position 277, which entry 90 owns. -/
def usurping : State :=
  { live with
    positions := [(277, { owner := some 90, pending := some 88 })]
    entries :=
      [(88, { telephone with candidate := some (candidateAt277 .first .queued) }),
        (90, { admittedEntry with identity := 11 })] }

theorem agrees_usurping : usurping.agrees := by
  refine State.agrees_of_listed ?_
  refine ⟨?_, ?_, ?_, ?_, ?_, ?_, ?_⟩ <;> decide

/-- FIRST at an empty desk, FIRST at an owned one, and RENEW. -/
theorem witness_MatchAdmitsOrRenews :
    (decided .matched).item.isVoid = false ∧ (decided .matched).verdict = .matched ∧ (decided .matched).item.entry = 88 ∧
      (decided .matched).item.position = 277 ∧
      ((asking .queued).agrees ∧ ((asking .queued).entry 88).candidate = some (candidateAt277 .first .queued) ∧
        ((asking .queued).position 277).owner = none) ∧
      (usurping.agrees ∧ (usurping.entry 88).candidate = some (candidateAt277 .first .queued) ∧
        (usurping.position 277).owner = some 90) ∧
      ((renewing .queued).agrees ∧ ((renewing .queued).entry 88).candidate = some (candidateAt277 .renew .queued)) :=
  ⟨rfl, rfl, rfl, rfl, ⟨agrees_asking, by decide, by decide⟩, ⟨agrees_usurping, by decide, by decide⟩,
    ⟨agrees_renewing, by decide⟩⟩

/-- Entry 88 ADMITTED at position 5 with a MOVE candidate at position 277, which has no owner. -/
def movingFree : State :=
  { live with
    positions := [(5, { owner := some 88 }), (277, { pending := some 88 })]
    entries := [(88, { admittedEntry with home := some 5, candidate := some (candidateAt277 .move .queued) })] }

theorem agrees_movingFree : movingFree.agrees := by
  refine State.agrees_of_listed ?_
  refine ⟨?_, ?_, ?_, ?_, ?_, ?_, ?_⟩ <;> decide

theorem witness_MatchMovesAdmission :
    ((moving .queued).agrees ∧ ((moving .queued).entry 88).candidate = some (candidateAt277 .move .queued) ∧
        ((moving .queued).entry 88).home = some 5 ∧ ((moving .queued).position 277).owner = some 90) ∧
      (movingFree.agrees ∧ (movingFree.entry 88).candidate = some (candidateAt277 .move .queued) ∧
        (movingFree.entry 88).home = some 5 ∧ (movingFree.position 277).owner = none) :=
  ⟨⟨agrees_moving, by decide, by decide, by decide⟩, ⟨agrees_movingFree, by decide, by decide, by decide⟩⟩

/-- A state of the examples with the failure count of entry 88 written. -/
def failing (n : Nat) (s : State) : State := s.setEntry 88 { s.entry 88 with failures := n }

theorem agrees_failing (n : Nat) (h : n = 1 ∨ n = 2 ∨ n = 7) :
    (failing n (asking .queued)).agrees ∧ (failing n (renewing .queued)).agrees ∧ (failing n movingFree).agrees := by
  rcases h with rfl | rfl | rfl <;> refine ⟨?_, ?_, ?_⟩ <;> refine State.agrees_of_listed ?_ <;>
    refine ⟨?_, ?_, ?_, ?_, ?_, ?_, ?_⟩ <;> decide

/-- The limit of group 3 is 3: failure counts that become 2 and 3 are below it and at it, and 7 stays at 7. Each holds for
a FIRST, a RENEW and a MOVE candidate. -/
theorem witness_MismatchIsCounted :
    (decided .mismatch).verdict = .mismatch ∧ (decided .mismatch).item.entry = 88 ∧
      (∀ s ∈ [asking .queued, renewing .queued, movingFree],
        (2 = min 7 (((failing 1 s).entry 88).failures + 1) ∧
          2 < ((failing 1 s).group ((failing 1 s).entry 88).group).failureLimit) ∧
        (3 = min 7 (((failing 2 s).entry 88).failures + 1) ∧
          ((failing 2 s).group ((failing 2 s).entry 88).group).failureLimit ≤ 3) ∧
        (7 = min 7 (((failing 7 s).entry 88).failures + 1) ∧
          ((failing 7 s).group ((failing 7 s).entry 88).group).failureLimit ≤ 7)) ∧
      ((failing 2 (asking .queued)).entry 88).candidate = some (candidateAt277 .first .queued) ∧
      ((failing 2 (renewing .queued)).entry 88).candidate = some (candidateAt277 .renew .queued) ∧
      ((failing 2 movingFree).entry 88).candidate = some (candidateAt277 .move .queued) ∧
      ((failing 2 movingFree).entry 88).home = some 5 := by
  refine ⟨rfl, rfl, ?_, ?_, ?_, ?_, ?_⟩ <;> decide

theorem witness_NotReadyTurnsAway :
    (decided .notReady).item.isVoid = false ∧ (decided .notReady).verdict = .notReady ∧ (asking .queued).agrees ∧
      (candidateAt277 .first .queued).kind ≠ .renew ∧ (renewing .queued).agrees ∧
      (candidateAt277 .renew .queued).kind = .renew :=
  ⟨rfl, rfl, agrees_asking, by decide, agrees_renewing, rfl⟩

theorem agrees_awaiting :
    (asking (.awaiting 500000)).agrees ∧ (renewing (.awaiting 500000)).agrees ∧
      (asking (.awaiting 500001)).agrees := by
  refine ⟨?_, ?_, ?_⟩ <;> refine State.agrees_of_listed ?_ <;> refine ⟨?_, ?_, ?_, ?_, ?_, ?_, ?_⟩ <;> decide

/-- Deadlines at the Frame Count and one beyond it. -/
theorem witness_FrameDeadlinesAct :
    (({ live with positions := [(0, { holdOff := some 500000 })] } : State).position 0).holdOff = some live.frameCount ∧
      (({ live with positions := [(0, { holdOff := some 500001 })] } : State).position 0).holdOff ≠
        some live.frameCount ∧
      ((asking (.awaiting 500000)).entry 88).candidate = some (candidateAt277 .first (.awaiting live.frameCount)) ∧
      ((renewing (.awaiting 500000)).entry 88).candidate = some (candidateAt277 .renew (.awaiting live.frameCount)) ∧
      ∀ c, ((asking (.awaiting 500001)).entry 88).candidate = some c → c.stage ≠ .awaiting live.frameCount := by
  refine ⟨by decide, by decide, by decide, by decide, fun c hc => ?_⟩
  have : c = candidateAt277 .first (.awaiting 500001) := (Option.some.inj hc).symm
  subst this
  decide

/-- A state of the examples whose re-challenge deadline of entry 88 stands at the Second Count. -/
def rechallenged (s : State) : State := s.setEntry 88 { s.entry 88 with rechallenge := some s.secondCount }

/-- Deadlines at the Second Count and one beyond it; a re-challenge postponed by each of its three grounds, and none. -/
theorem witness_SecondsDeadlinesAct :
    ({ seated with secondCount := 300 } : State).agrees ∧
      (seated.entry 88).refresh = some ({ seated with secondCount := 300 } : State).secondCount ∧
      (seated.entry 88).home = some 277 ∧
      (seated.entry 88).refresh ≠ some ({ seated with secondCount := 301 } : State).secondCount ∧
      (∀ s ∈ [seated, movingFree, renewing .queued], ((rechallenged s).entry 88).rechallenge = some s.secondCount) ∧
      ((rechallenged movingFree).entry 88).home = some 5 ∧ ((rechallenged movingFree).entry 88).candidate ≠ none ∧
      ((rechallenged (renewing .queued)).position 277).pending ≠ none ∧
      (rechallenged { seated with verifyPause := true }).verifyPause = true ∧
      ((rechallenged seated).entry 88).home = some 277 ∧ ((rechallenged seated).entry 88).candidate = none ∧
      ((rechallenged seated).position 277).pending = none ∧ (rechallenged seated).verifyPause = false := by
  refine ⟨State.agrees_of_listed ?_, by decide, by decide, by decide, by decide, by decide, by decide, by decide, by decide,
    by decide, by decide, by decide, by decide⟩
  refine ⟨?_, ?_, ?_, ?_, ?_, ?_, ?_⟩ <;> decide

theorem witness_CellsWithoutEffect : 120 ≤ (120 : Nat) ∧ 120 ≤ (255 : Nat) ∧ live.inFrame := ⟨by decide, by decide, inFrame_live⟩

/-- The unique identities of a state with one entry. -/
theorem identities_one (e : Entry) : ({ live with entries := [(88, e)] } : State).identitiesUnique := by
  have hload : ∀ i, (({ live with entries := [(88, e)] } : State).entry i).loaded = true → i = 88 := by
    intro i hi
    by_contra hne
    simp [State.entry, Table.get_cons, Entry.loaded, Ne.symm hne] at hi
  intro i j hi hj _
  rw [hload i hi, hload j hj]

/-- Each check of a SIGN-ON at position 277, and the three kinds of candidate. -/
theorem witness_SignOnIsChecked :
    (37 : Nat) < 120 ∧ 277 = 120 * 2 + 37 ∧ atRest.wf = true ∧ atRest.inFrame ∧
      (({ live with positions := [(277, { holdOff := some 500064 })] } : State).position 277).holdOff = some 500064 ∧
      (atRest.position 277).holdOff = none ∧ ({ atRest with reportPause := true } : State).reportPause = true ∧
      ((asking .queued).position 277).pending ≠ none ∧ (∀ e, (live.entry e).loaded = true → (live.entry e).identity ≠ 5) ∧
      atRest.identitiesUnique ∧ (atRest.entry 88).loaded = true ∧ (atRest.entry 88).identity = 40217655 ∧
      (atRest.entry 88).state ≠ .barred ∧ (atRest.entry 88).secret ≠ none ∧ (atRest.entry 88).candidate = none ∧
      (seated.entry 88).home = some 277 ∧ (seated.entry 88).home ≠ some 276 :=
  ⟨by decide, by decide, by decide, inFrame_atRest, by decide, by decide, rfl, by decide, fun e he => by
    simp [State.entry, live, State.reset, Entry.loaded] at he, identities_one telephone, by decide, by decide, by decide,
    by decide, by decide, by decide, by decide⟩

/-- A BARRED entry, one without a secret, and one with a candidate, each the only one with its identity. -/
theorem witness_SignOnIsChecked_refusals :
    ({ live with entries := [(88, { telephone with state := .barred })] } : State).identitiesUnique ∧
      ({ live with entries := [(88, { telephone with secret := none })] } : State).identitiesUnique ∧
      ({ live with entries := [(88, { telephone with candidate := some (candidateAt277 .first .queued) })] } :
        State).identitiesUnique :=
  ⟨identities_one _, identities_one _, identities_one _⟩

/-- Entry 88 awaiting its answer while `n` items stand in the Verification Queue. -/
def answering (n : Nat) : State :=
  { asking (.awaiting 5) with verifyQueue := List.replicate n (itemOf ⟨0, 0, 0, 0⟩) }

/-- Queues of 31 and 32 items; no candidate, a FIRST and a RENEW. -/
theorem witness_AnswerAndKeepaliveAreDecided :
    atRest.inFrame ∧ (asking .queued).inFrame ∧ (renewing .queued).inFrame ∧ seated.inFrame ∧ (answering 31).inFrame ∧
      (answering 32).inFrame ∧ (atRest.position 277).pending = none ∧ ((asking .queued).position 277).pending = some 88 ∧
      ((asking .queued).entry 88).candidate = some (candidateAt277 .first .queued) ∧
      (candidateAt277 .first (.awaiting 5)).stage ≠ .queued ∧
      (∀ n ∈ [31, 32], ((answering n).position 277).pending = some 88 ∧
        ((answering n).entry 88).candidate = some (candidateAt277 .first (.awaiting 5))) ∧
      32 ≤ (answering 32).verifyQueue.length ∧ (answering 31).verifyQueue.length < 32 ∧
      (atRest.position 277).owner = none ∧ ((renewing .queued).position 277).owner = some 88 ∧
      ((renewing .queued).entry 88).candidate = some (candidateAt277 .renew .queued) ∧
      (seated.position 277).owner = some 88 ∧ (seated.entry 88).candidate = none :=
  ⟨inFrame_atRest, inFrame_asking, inFrame_renewing, inFrame_seated,
    State.inFrame_of_listed rfl (by unfold State.listedQuiet; decide),
    State.inFrame_of_listed rfl (by unfold State.listedQuiet; decide), by decide⟩

theorem witness_SignOffEndsAdmission :
    seated.agrees ∧ seated.inFrame ∧ (seated.position 277).owner = some 88 ∧ usurping.agrees ∧
      (usurping.position 277).owner = some 90 ∧ (usurping.position 277).pending = some 88 ∧ (asking .queued).agrees ∧
      ((asking .queued).position 277).owner = none ∧ (seated.position 277).pending = none :=
  ⟨agrees_seated, inFrame_seated, by decide, agrees_usurping, by decide, by decide, agrees_asking, by decide, by decide⟩

theorem witness_BadIndexIsRefusedFirst :
    live.inFrame ∧ (1023 : Nat) < 1024 ∧ (15 : Nat) < 16 ∧ (255 : Nat) < 256 ∧ (479 : Nat) < 480 ∧ (8188 : Nat) < 8189 :=
  ⟨inFrame_live, by decide, by decide, by decide, by decide, by decide⟩

/-- Entry 1023 with the identity of entry 88, with one of its own, and in use. -/
theorem witness_LoadExtensionWritesEntry :
    atRest.wf = true ∧ atRest.inFrame ∧ 1023 ≤ 1023 ∧ (99999999 : Nat) < 100000000 ∧ 99999999 ≤ 99999999 ∧
      atRest.identityElsewhere 1023 40217655 ∧ ¬ atRest.identityElsewhere 88 40217655 ∧
      (atRest.entry 88).state ≠ .admitted ∧ (atRest.entry 88).candidate = none ∧ (seated.entry 88).state = .admitted ∧
      ((asking .queued).entry 88).candidate ≠ none := by
  refine ⟨by decide, inFrame_atRest, by decide, by decide, by decide, ⟨88, by decide, by decide, by decide⟩, ?_, by decide, by decide,
    by decide, by decide⟩
  rintro ⟨f, hf, hl, -⟩
  simp [atRest, State.entry, Table.get_cons, Entry.loaded, Ne.symm hf] at hl

theorem witness_UnbarMakesAbsent :
    live.inFrame ∧ (1023 : Nat) < 1024 ∧ 1023 ≤ 1023 ∧ (live.entry 1023).state ≠ .barred ∧
      (({ live with entries := [(1023, { state := .barred })] } : State).entry 1023).state = .barred :=
  ⟨inFrame_live, by decide, by decide, by decide, by decide⟩

theorem witness_EntriesAreForcedOff :
    seated.agrees ∧ seated.inFrame ∧ atRest.inFrame ∧ (asking .queued).inFrame ∧ (88 : Nat) ≤ 1023 ∧ (seated.entry 88).state = .admitted ∧ (seated.entry 88).home = some 277 ∧
      (live.entry 1023).state = .unloaded ∧ (atRest.entry 88).state = .absent ∧ (atRest.entry 88).candidate = none ∧
      ((asking .queued).entry 88).state = .absent ∧ ((asking .queued).entry 88).candidate ≠ none ∧
      (({ live with entries := [(1023, { state := .barred })] } : State).entry 1023).state = .barred :=
  ⟨agrees_seated, inFrame_seated, inFrame_atRest, inFrame_asking, by decide, by decide, by decide, by decide, by decide, by decide, by decide, by decide, by decide⟩

/-- A half of the other kind, of the same kind, none, and a half for another target. -/
theorem witness_HalvesJoinIntoKeys :
    atRest.inFrame ∧ live.inFrame ∧ (atRest.entry 88).state ≠ .unloaded ∧ atRest.pairBuffer = none ∧
      ({ atRest with pairBuffer := some ⟨.secret 88, .high, 1, 2⟩ } : State).pairBuffer =
        some ⟨.secret 88, .high, 1, 2⟩ ∧
      ({ atRest with pairBuffer := some ⟨.secret 88, .low, 1, 2⟩ } : State).pairBuffer = some ⟨.secret 88, .low, 1, 2⟩ ∧
      PairTarget.stagedKey 88 ≠ .secret 88 ∧ (255 : Nat) ≤ 255 ∧
      (({ live with contexts := [(255, { staged := some ⟨worked, true, false⟩ })] } : State).context 255).staged =
        some ⟨worked, true, false⟩ ∧
      (∀ k, (live.context 255).staged = some k → k.txTaken = k.rxTaken) :=
  ⟨inFrame_atRest, inFrame_live, by decide, rfl, rfl, rfl, by decide, by decide, by decide, fun k h => by
    simp [State.context, live, State.reset] at h⟩

/-- Budgets and limits at and beyond the ends of their ranges. -/
theorem witness_GroupValuesAreClamped :
    live.inFrame ∧ (15 : Nat) < 16 ∧ 15 ≤ 15 ∧ (live.group 15).inUse ≤ 256 ∧ (256 : Nat) < 257 ∧
      0 < ((talking exampleCall).group 3).inUse ∧ ((talking exampleCall).group 3).inUse ≤ 1 ∧ (7 : Nat) < 8 ∧
      (4095 : Nat) < 4096 ∧ (32767 : Nat) < 32768 :=
  ⟨inFrame_live, by decide, by decide, by decide, by decide, by decide, by decide, by decide, by decide, by decide⟩

/-- Entry 88 ADMITTED at position 277 with context 9 FREE and a staged key in it. -/
def ready (staged : Option StagedKey) (requested : Treatment) (budget : Nat) : State :=
  { live with
    positions := [(277, { owner := some 88, requested := requested })]
    entries := [(88, admittedEntry)]
    groups := [(3, { budget := budget })]
    contexts := [(9, { staged := staged })] }

theorem inFrame_ready (staged : Option StagedKey) (budget : Nat) : (ready staged .clear budget).inFrame :=
  State.inFrame_of_listed rfl ⟨rfl, rfl, by simp [ready, live, State.reset], by
    simp [ready, admittedEntry, telephone, live, State.reset]⟩

theorem noCallAt_ready (staged : Option StagedKey) (requested : Treatment) (budget : Nat) :
    (ready staged requested budget).noCallAt 277 := by
  intro j hj
  simp [ready, State.position, Table.get_cons] at hj

theorem witness_OpenCallIsChecked :
    live.inFrame ∧ (talking exampleCall).inFrame ∧ (ready (some ⟨worked, false, false⟩) .clear 0).inFrame ∧
      ((talking exampleCall).context 9).call ≠ none ∧ ((ready none .clear 1).context 9).call = none ∧ (479 : Nat) < 480 ∧
      (1 : Nat) < 2 ∧ (live.position 479).owner = none ∧ ((ready none .clear 1).position 277).owner = some 88 ∧
      ((ready none .lineLoop 1).position 277).requested = .lineLoop ∧
      ((ready none .clear 1).position 277).requested.isLoop = false ∧
      ((talking exampleCall).position 277).context = some 9 ∧ ((talking exampleCall).context 8).call = none ∧
      (ready none .clear 1).noCallAt 277 ∧
      ((ready (some ⟨worked, false, false⟩) .clear 0).context 9).staged = some ⟨worked, false, false⟩ ∧
      ((ready (some ⟨worked, false, false⟩) .clear 0).group 3).budget ≤
        ((ready (some ⟨worked, false, false⟩) .clear 0).group 3).inUse := by
  refine ⟨inFrame_live, inFrame_talking, inFrame_ready _ _, by decide, by decide, by decide, by decide, by decide, by decide, by decide, by decide, by decide, by decide,
    noCallAt_ready _ _ _, by decide, by decide⟩

theorem witness_OpenCallOpensContext :
    let s := ready (some ⟨worked, false, false⟩) .clear 1
    s.inFrame ∧ 9 ≤ 255 ∧ (s.context 9).call = none ∧ 277 ≤ 479 ∧ 1 ≤ 1 ∧ (s.position 277).owner = some 88 ∧
      (s.position 277).requested.isLoop = false ∧ s.noCallAt 277 ∧ (s.context 9).staged = some ⟨worked, false, false⟩ ∧
      (s.group (s.entry 88).group).inUse < (s.group (s.entry 88).group).budget :=
  ⟨inFrame_ready _ _, by decide, by decide, by decide, by decide, by decide, by decide, noCallAt_ready _ _ _, by decide, by decide⟩

theorem witness_CloseCallFreesContext :
    live.inFrame ∧ (talking exampleCall).inFrame ∧ (live.context 255).call = none ∧
      ((talking exampleCall).context 9).call = some ⟨277, 88, worked, worked⟩ :=
  ⟨inFrame_live, inFrame_talking, by decide, by decide⟩

/-- A rekey boundary and a number that is none, with each state of the staged key; an upstream arrival still owed. -/
theorem witness_TransmitSideAdvances :
    let s := atBoundary (talking { exampleCall with txFrame := 3071 })
    s.pulsed ∧ 9 ∈ s.boundary.txDue ∧ (s.context 9).call = some ⟨277, 88, worked, worked⟩ ∧
      277 ∉ s.boundary.suppliedUp ∧ (3072 : FrameNumber) = (s.context 9).txFrame + 1 ∧
      (3072 : FrameNumber).toNat % (3 * 1024) = 0 ∧ (3073 : FrameNumber).toNat % (3 * 1024) ≠ 0 ∧
      s.settings.rekeyMultiple = 0 ∧ (s.context 9).staged = none ∧ 8 ∉ s.boundary.txDue ∧
      (live.context 9).call = none ∧ 479 ∈ owing.boundary.suppliedUp ∧ owing.boundary.suppliedUp.Nodup :=
  ⟨rfl, by decide, by decide, by decide, by decide, by decide, by decide, by decide, by decide, by decide, by decide,
    by decide, by decide⟩

/-- Carried and supplied arrivals, and each treatment with an owner and without. -/
theorem witness_UpstreamOutsideCalls :
    live.pulsed ∧ live.upArrives 0 (.carried 5) ∧ owing.upArrives 479 .supplied ∧
      ((ready none .lineLoop 1).position 277).requested = .lineLoop ∧
      ((ready none .switchLoop 1).position 277).requested = .switchLoop ∧
      ((live.position 0).requested.isLoop = false ∧ (live.position 0).owner = none) ∧
      (((ready none .mute 1).position 277).requested = .mute ∧ (ready none .mute 1).noCallAt 277) ∧
      (((ready none .tone 1).position 277).requested = .tone ∧ ((ready none .tone 1).position 277).owner ≠ none) := by
  refine ⟨rfl, ⟨by decide, by decide⟩, ?_, by decide, by decide, ⟨by decide, by decide⟩,
    ⟨by decide, noCallAt_ready _ _ _⟩, ⟨by decide, by decide⟩⟩
  show 479 ∈ owing.boundary.suppliedUp
  decide

theorem witness_DownstreamOutsideCalls :
    live.downArrives 0 (.carried 5) ∧ owing.downArrives 479 .supplied ∧
      ((asking .queued).position 277).pending ≠ none ∧ ((asking .queued).position 277).owner = none ∧
      ((ready none .clear 1).position 277).owner ≠ none ∧ (ready none .clear 1).noCallAt 277 ∧
      (({ live with channels := [(3, { status := .running })] } : State).channel 3).status = .running ∧
      (({ live with channels := [(3, { status := .running })] } : State).channel 3).mode = .advance ∧
      (live.channel 3).status ≠ .running ∧ (atBoundary live).boundary.playoutDue = 0 :: [3, 15] ∧
      (∃ u, exec (.playoutAdvance 0) (atBoundary live) = .next u) ∧ owing.boundary.playoutDue = [] ∧
      277 ∉ owing.boundary.suppliedUp ∧ 277 ∉ owing.boundary.suppliedDown ∧ ∃ u, exec .reportSend owing = .next u := by
  refine ⟨⟨by decide, by decide, rfl, rfl⟩, ?_, by decide, by decide, by decide, noCallAt_ready _ _ _, by decide, by decide,
    by decide, rfl, ⟨_, rfl⟩, rfl, by decide, by decide, ⟨_, rfl⟩⟩
  show 479 ∈ owing.boundary.suppliedDown
  decide

theorem inCall_talking (c : Context) (h : c.call = some ⟨277, 88, worked, worked⟩) :
    (talking c).inCall 277 9 ⟨277, 88, worked, worked⟩ := by
  refine ⟨by simp [talking, State.position, Table.get_cons], by simp [talking, State.position, Table.get_cons,
    Treatment.isLoop], by simp [talking, State.position, Table.get_cons], by simp [talking, State.context, Table.get_cons, h]⟩

/-- The last burst frame of a Sync Span and the first after it; a call whose transmit advance is due. -/
theorem witness_UpstreamInCall :
    (talking exampleCall).pulsed ∧ (talking exampleCall).upArrives 277 (.carried 200) ∧
      (talking { exampleCall with txFrame := 7 }).inCall 277 9 ⟨277, 88, worked, worked⟩ ∧
      (7 : FrameNumber).toNat % 1024 = 7 ∧ (burstBytes (7 - BitVec.ofNat 24 7) 0)[7]? = some 164 ∧
      (8 : FrameNumber).toNat % 1024 = 8 ∧ 9 ∉ (talking exampleCall).boundary.txDue ∧
      (atBoundary (talking exampleCall)).pulsed ∧
      (atBoundary (talking exampleCall)).inCall 277 9 ⟨277, 88, worked, worked⟩ ∧
      (atBoundary (talking exampleCall)).boundary.txDue.Nodup ∧
      277 ∉ (atBoundary (talking exampleCall)).boundary.suppliedUp ∧
      277 ∉ (atBoundary (talking exampleCall)).boundary.suppliedDown ∧
      ∃ u, exec (.txFrameAdvance 9) (atBoundary (talking exampleCall)) = .next u :=
  ⟨rfl, ⟨by decide, by decide⟩, inCall_talking _ rfl, by decide, by decide, by decide, by decide, rfl,
    inCall_talking exampleCall rfl, by decide, by decide, by decide, ⟨_, rfl⟩⟩

/-- Windows of seven and of eight codes, each receive state, and a burst byte. -/
theorem witness_DownstreamReleasesOldest :
    (talking exampleCall).downArrives 277 (.carried 5) ∧
      (talking exampleCall).inCall 277 9 ⟨277, 88, worked, worked⟩ ∧
      (List.replicate 7 (⟨1, false⟩ : WindowCode)).length < 8 ∧
      (List.replicate 8 (⟨1, false⟩ : WindowCode)) = ⟨1, false⟩ :: List.replicate 7 ⟨1, false⟩ ∧
      ∀ sync, (talking { exampleCall with sync := sync, window := List.replicate 8 ⟨1, true⟩ }).inCall 277 9
        ⟨277, 88, worked, worked⟩ :=
  ⟨⟨by decide, by decide, rfl, rfl⟩, inCall_talking _ rfl, by decide, rfl, fun _ => inCall_talking _ rfl⟩

/-- An expected place with misses just below the Miss Limit and at it. -/
theorem witness_ReceiveWithoutBurst :
    let c (misses : Nat) : Context := { exampleCall with sync := .aligned, rxFrame := 1030, misses := misses }
    findBurst 1024 ((c 1).appended 5).window = none ∧ ((c 1).appended 5).sync ≠ .hunt ∧
      ((c 1).appended 5).rxFrame.toNat % 1024 = 7 ∧ ((c 1).appended 5).misses + 1 < live.settings.missLimit ∧
      live.settings.missLimit ≤ ((c 2).appended 5).misses + 1 ∧
      (talking (c 2)).inCall 277 9 ⟨277, 88, worked, worked⟩ := by
  refine ⟨by decide, by decide, by decide, by decide, by decide, inCall_talking _ rfl⟩

/-- The burst at 3072 under generation 1, at its expected place and in HUNT, with the keys the generation check meets. -/
theorem witness_ReceiveWithBurst :
    let c (sync : SyncState) (staged : Option StagedKey) : Context :=
      { exampleCall with
        sync := sync, rxFrame := 3078, staged := staged
        window := [1, 27, 228, 0, 12, 0, 1, 165].map (fun x => (⟨x, false⟩ : WindowCode)) }
    findBurst 1024 ((c .aligned none).appended 177).window = some ⟨3072, 1⟩ ∧
      ((c .aligned none).appended 177).rxFrame.toNat % 1024 = 7 ∧
      (3072 : FrameNumber) = ((c .aligned none).appended 177).rxFrame - 7 ∧ (1 : Generation) = (c .hunt none).rxGeneration + 1 ∧
      ((c .hunt (some ⟨worked, true, false⟩)).appended 177).staged = some ⟨worked, true, false⟩ ∧
      ∀ sync staged, (talking (c sync staged)).inCall 277 9 ⟨277, 88, worked, worked⟩ := by
  refine ⟨by decide, by decide, by decide, by decide, by decide, fun _ _ => inCall_talking _ rfl⟩

/-- Treatment codes 4 and 5, tone channels 15 and 16, gains 512 and 513, directions 1, 3 and 4. -/
theorem witness_PositionCellsAreWritten :
    live.inFrame ∧ 479 ≤ 479 ∧ (4 : Nat) < 5 ∧ (15 : Nat) < 16 ∧ ¬ (talking exampleCall).noCallAt 277 ∧
      (4, Treatment.switchLoop) ∈
        [(0, Treatment.clear), (1, .mute), (2, .tone), (3, .lineLoop), (4, .switchLoop)] ∧
      (ready none .clear 1).noCallAt 277 ∧ (512 : Nat) < 513 ∧ (479 : Nat) < 480 ∧ (3 : Nat) < 4 := by
  refine ⟨inFrame_live, by decide, by decide, by decide, ?_, by decide, noCallAt_ready _ _ _, by decide, by decide, by decide⟩
  intro h
  exact absurd (h 9 (by decide)) (by decide)

/-- Addresses, starts, lengths and modes at and beyond the ends of their ranges. -/
theorem witness_PlayoutCellsAreApplied :
    live.inFrame ∧ live.wf = true ∧ (8188 : Nat) < 8189 ∧ 8188 ≤ 8188 ∧ (8191 : Nat) < 8192 ∧ (1 : Nat) < 2 ∧
      8192 - 2000 < 8000 ∧ 1 ≤ 6192 ∧ 6192 ≤ 8192 - 2000 ∧ (15 : Nat) < 16 ∧
      ({ live with channels := [(15, { status := .running })] } : State).wf = true ∧ (live.channel 15).status ≠ .running :=
  ⟨inFrame_live, by decide, by decide, by decide, by decide, by decide, by decide, by decide, by decide, by decide, by decide,
    by decide⟩

/-- The last position of a stretch and the one before it; one repeat left, two, and endless. -/
theorem witness_PlayoutAdvances :
    (atBoundary live).pulsed ∧ 3 ∈ (atBoundary live).boundary.playoutDue ∧ 4 ∉ (atBoundary live).boundary.playoutDue ∧
      (1002 : Nat) < 1000 + 4 - 1 ∧ 1000 + 4 - 1 ≤ (1003 : Nat) ∧ Repeats.count 2 = .count (0 + 2) :=
  ⟨rfl, by decide, by decide, by decide, by decide, rfl⟩

/-- Setting numbers beside the ranges, and values at their ends. -/
theorem witness_SettingsAreWritten :
    live.inFrame ∧ (8 < 9 ∧ 9 < 17) ∧ (8 < 16 ∧ 16 < 17) ∧ (36 : Nat) < 37 ∧ (talking exampleCall).openContexts ≠ [] ∧
      live.openContexts = [] ∧ 256 ∈ [256, 512, 1024, 2048, 4096, 8192] ∧ 257 ∉ [256, 512, 1024, 2048, 4096, 8192] ∧
      ((15 : Nat) ≤ 15 ∧ some 15 = some 15) ∧ ((15 : Nat) < 16 ∧ (16 : Nat) ≠ 65535) :=
  ⟨inFrame_live, by decide, by decide, by decide, by decide, by decide, by decide, by decide, by decide, by decide⟩

/-- Page kinds 0 and 10, an index beyond the page, a part the page does not have, and the last of each. -/
theorem witness_ReadIsChecked :
    live.inFrame ∧ (9 : Nat) < 10 ∧
      (9, 1, 4) ∈ [(1, 1024, 3), (2, 1024, 2), (3, 480, 1), (4, 480, 2), (5, 256, 2), (6, 256, 2), (7, 16, 2), (8, 16, 2),
        (9, 1, 4)] ∧ 1 ≤ (1 : Nat) ∧ (0 : Nat) < 1 ∧ 4 ≤ (4 : Nat) ∧ (3 : Nat) < 4 :=
  ⟨inFrame_live, by decide, by decide, by decide, by decide, by decide, by decide⟩

theorem witness_ReadShowsThePages :
    live.inFrame ∧ 1023 ≤ 1023 ∧ 479 ≤ 479 ∧ 255 ≤ 255 ∧ 15 ≤ 15 ∧
      ((asking .queued).entry 88).candidate = some (candidateAt277 .first .queued) ∧ (live.entry 1023).candidate = none ∧
      (live.context 255).shownStaged 0 ∧
      ({ staged := some ⟨worked, true, false⟩ } : Context).shownStaged 2 ∧
      ({ staged := some ⟨worked, false, true⟩ } : Context).shownStaged 3 ∧ (live.context 255).sync = .hunt ∧
      ({ sync := .keyWait } : Context).sync ≠ .hunt ∧ (live.channel 15).repeats = .endless ∧
      (EntryState.barred, 3) ∈ [(EntryState.unloaded, 0), (.absent, 1), (.admitted, 2), (.barred, 3)] := by
  refine ⟨inFrame_live, by decide, by decide, by decide, by decide, by decide, by decide, .inl ⟨by decide, rfl⟩,
    .inr ⟨_, rfl, by decide⟩, .inr ⟨_, rfl, by decide⟩, by decide, by decide, by decide, by decide⟩

theorem witness_RestartsClearCallsAndAdmissions :
    (talking exampleCall).wf = true ∧ (talking exampleCall).inFrame ∧ (0 : Nat) ≠ 1 ∧ (3 : Nat) ≠ 2 ∧
      ({ live with pairBuffer := some ⟨.stagedKey 9, .low, 1, 2⟩ } : State).pairBuffer =
        some ⟨.stagedKey 9, .low, 1, 2⟩ ∧
      ({ live with pairBuffer := some ⟨.secret 9, .low, 1, 2⟩ } : State).pairBuffer = some ⟨.secret 9, .low, 1, 2⟩ :=
  ⟨by decide, inFrame_talking, by decide, by decide, rfl, rfl⟩

/-- Two states whose entry 88 has different secrets. -/
theorem witness_ReadTellsNothingOfKeys :
    let u : State := { live with entries := [(88, { telephone with secret := some ⟨1, 2, 3, 4⟩ })] }
    atRest.wf = true ∧ u.wf = true ∧ atRest.quiet ∧ SameButKeys atRest u ∧ (∃ s', exec (.read 7 1 88 0) atRest = .next s') ∧
      ∃ u', exec (.read 7 1 88 0) u = .next u' := by
  refine ⟨by decide, by decide, inFrame_atRest.2, ⟨fun e => ?_, fun j => rfl, rfl⟩, ⟨_, rfl⟩, ⟨_, rfl⟩⟩
  by_cases h : 88 = e
  · subst h; rfl
  · simp [atRest, State.entry, Table.get_cons, h]

theorem witness_CellsDecodeBack :
    (Instr.openCall 1 65535 65535 255).wellFormed = true ∧
      (∀ tag kind, Instr.openCall 1 65535 65535 255 ≠ .unknownKind tag kind) ∧
      (∃ bytes, encodeManagementCell (.openCall 1 65535 65535 255) = some bytes) ∧ (19 : Nat) < 20 ∧ (255 : Nat) < 256 ∧
      (∃ bytes, encodeManagementCell (.unknownKind 1 20) = some bytes) ∧
      (Instr.lineCellDiscarded 3 4 120).wellFormed = true ∧
      (∃ p, encodeLineCell (.lineCellDiscarded 3 4 120) = some p) ∧ ([0, 1, 2, 3, 4, 5, 6, 7] : List Byte).length = 8 := by
  refine ⟨by decide, fun _ _ => by simp, ⟨_, rfl⟩, by decide, by decide, ⟨_, rfl⟩, by decide, ⟨_, rfl⟩, rfl⟩

/-- A part in a call that is about to take a SIGN-OFF. -/
def leaving : State := { talking exampleCall with pending := [.signOff 2 37] }

theorem agrees_leaving : leaving.agrees := by
  refine State.agrees_of_listed ?_
  refine ⟨?_, ?_, ?_, ?_, ?_, ?_, ?_⟩ <;> decide

theorem silent_leaving : leaving.silent := by
  intro p
  refine Table.forall_get (P := fun _ (x : Position) => x.silent) (fun x hx => ?_) (fun _ _ _ => rfl) p
  simp [leaving, talking] at hx
  subst hx
  intro h
  simp at h

theorem keysAgree_leaving : leaving.keysAgree := by
  intro j
  refine Table.forall_get (d := ({} : Context)) (P := fun _ (x : Context) => x.keysAgree) (fun x hx => ?_) (fun _ => ?_) j
  · simp [leaving, talking] at hx
    subst hx
    rfl
  · exact True.intro

/-- The hypotheses of the statements of what every step keeps, on a state whose step ends a call and an admission. -/
theorem witness_EveryStepKeeps :
    leaving.wf = true ∧ leaving.bounded ∧ leaving.pausesAtMarks ∧ leaving.silent ∧ leaving.keysAgree ∧ leaving.agrees ∧
      ∃ t, step leaving = .next t ∧ t.openContexts = [] := by
  refine ⟨by decide, ?_, ?_, silent_leaving, keysAgree_leaving, agrees_leaving, ⟨_, rfl, by decide⟩⟩
  · unfold State.bounded; decide
  · unfold State.pausesAtMarks; decide

/-- The hypotheses of EveryStepKeepsSilence, with position 0, which has no owner. -/
theorem witness_EveryStepKeepsSilence :
    leaving.wf = true ∧ leaving.silent ∧ (∃ t, step leaving = .next t) ∧ (leaving.position 0).owner = none ∧
      (leaving.position 0).requested ≠ .switchLoop ∧ (leaving.position 0).switchDriven = false :=
  ⟨witness_EveryStepKeeps.1, silent_leaving, ⟨_, rfl⟩, by decide⟩

/-- The hypotheses of EveryStepKeepsRanges. -/
theorem witness_EveryStepKeepsRanges : leaving.wf = true ∧ ∃ t, step leaving = .next t :=
  ⟨witness_EveryStepKeeps.1, _, rfl⟩

/-- The hypotheses of both halves of EveryStepKeepsQueueBounds. -/
theorem witness_EveryStepKeepsQueueBounds :
    leaving.wf = true ∧ leaving.bounded ∧ leaving.pausesAtMarks ∧ ∃ t, step leaving = .next t :=
  ⟨witness_EveryStepKeeps.1, witness_EveryStepKeeps.2.1, witness_EveryStepKeeps.2.2.1, _, rfl⟩

/-- The hypotheses of EveryStepKeepsStagedKeys. -/
theorem witness_EveryStepKeepsStagedKeys : leaving.wf = true ∧ leaving.keysAgree ∧ ∃ t, step leaving = .next t :=
  ⟨witness_EveryStepKeeps.1, keysAgree_leaving, _, rfl⟩

/-- The hypotheses of EveryStepKeepsAdmissions. -/
theorem witness_EveryStepKeepsAdmissions : leaving.wf = true ∧ leaving.agrees ∧ ∃ t, step leaving = .next t :=
  ⟨witness_EveryStepKeeps.1, agrees_leaving, _, rfl⟩

/-- The hypotheses of both halves of EveryStepKeepsCandidates. -/
theorem witness_EveryStepKeepsCandidates : leaving.wf = true ∧ leaving.agrees ∧ ∃ t, step leaving = .next t :=
  witness_EveryStepKeepsAdmissions

/-- The hypotheses of both halves of EveryStepKeepsCalls. -/
theorem witness_EveryStepKeepsCalls : leaving.wf = true ∧ leaving.agrees ∧ ∃ t, step leaving = .next t :=
  witness_EveryStepKeepsAdmissions

/-- The hypotheses of EveryStepKeepsIdentities. -/
theorem witness_EveryStepKeepsIdentities : leaving.wf = true ∧ leaving.agrees ∧ ∃ t, step leaving = .next t :=
  witness_EveryStepKeepsAdmissions

end Sys2Proof.Tests
end

section
/-! The lengths of the queues and the number of OPEN contexts under each operation on them. -/

namespace Sys2Proof.Machine

/-! ### The Report Queue (R171, R172) -/

/-- A greatest level is the level of a cell present, unless no level exceeds the start of the search. -/
theorem foldl_max_level_attained (q : List QueuedCell) (a : Nat) :
    q.foldl (fun m c => max m c.level) a = a ∨ ∃ c ∈ q, c.level = q.foldl (fun m c => max m c.level) a := by
  induction q generalizing a with
  | nil => exact .inl rfl
  | cons c q ih =>
    rw [List.foldl_cons]
    rcases ih (max a c.level) with h | ⟨d, hd, hl⟩
    · rw [h]
      rcases max_choice a c.level with hm | hm
      · exact .inl hm
      · exact .inr ⟨c, List.mem_cons_self .., hm.symm⟩
    · exact .inr ⟨d, List.mem_cons_of_mem _ hd, hl⟩

/-- A queue with a greatest level above 0 holds a cell of that level. -/
theorem greatestLevel_attained {q : List QueuedCell} {level : Nat} (h : level < greatestLevel q) :
    ∃ c ∈ q, c.level = greatestLevel q := by
  rcases foldl_max_level_attained q 0 with h0 | h0
  · rw [greatestLevel, h0] at h; exact absurd h (Nat.not_lt_zero _)
  · exact h0

/-- One cell leaves when the newest cell of a level present is removed. -/
theorem removeNewest_length {level : Nat} {q : List QueuedCell} (h : ∃ c ∈ q, c.level = level) :
    (removeNewest level q).length + 1 = q.length := by
  induction q with
  | nil => simp at h
  | cons c q ih =>
    by_cases hq : ∃ d ∈ q, d.level = level
    · have hany : q.any (fun d => decide (d.level = level)) = true := by simpa using hq
      rw [removeNewest, if_pos hany, List.length_cons, ih hq, List.length_cons]
    · have hany : ¬ q.any (fun d => decide (d.level = level)) = true := by simpa using hq
      have hc : c.level = level := by
        obtain ⟨d, hd, hl⟩ := h
        rcases List.mem_cons.1 hd with rfl | hd
        · exact hl
        · exact absurd ⟨d, hd, hl⟩ hq
      rw [removeNewest, if_neg hany, if_pos hc, List.length_cons]

/-- One cell leaves at a selection. -/
theorem selectReport_length {q rest : List QueuedCell} {cell : OutCell} (h : selectReport q = some (cell, rest)) :
    rest.length + 1 = q.length := by
  simp only [selectReport, Option.map_eq_some_iff, Prod.mk.injEq] at h
  obtain ⟨c, hfind, -, rfl⟩ := h
  have hmem := List.mem_of_find?_eq_some hfind
  rw [List.length_eraseP_of_mem hmem (List.find?_some hfind)]
  have := List.length_pos_of_mem hmem
  omega

/-! ### The OPEN contexts (R114) -/

theorem State.openContexts_length (s : State) :
    s.openContexts.length = s.contexts.countP (fun x => x.2.isOpen) := by
  rw [State.openContexts, List.length_map, List.countP_eq_length_filter]

/-- An erasure of a record that counts lowers a count; of any other it does not raise it. -/
theorem Table.countP_erase_le {α : Type} (d : α) (t : Table α) (P : α → Bool) (hd : P d = false) (i : Nat) :
    (Table.erase t i).countP (fun x => P x.2) + (if P (Table.get d t i) then 1 else 0) ≤
      t.countP (fun x => P x.2) := by
  induction t with
  | nil => simp [Table.erase, hd]
  | cons x rest ih =>
    obtain ⟨k, v⟩ := x
    have hsub : (Table.erase rest i).countP (fun x => P x.2) ≤ rest.countP (fun x => P x.2) :=
      List.filter_sublist.countP_le
    by_cases hk : k = i
    · have he : Table.erase ((k, v) :: rest) i = Table.erase rest i := by simp [Table.erase, hk]
      rw [he, Table.get_cons, if_pos hk, List.countP_cons]
      dsimp only
      omega
    · have he : Table.erase ((k, v) :: rest) i = (k, v) :: Table.erase rest i := by simp [Table.erase, hk]
      rw [he, Table.get_cons, if_neg hk, List.countP_cons, List.countP_cons]
      omega

/-- A write that counts only where the record it replaces counted does not raise a count. -/
theorem Table.countP_set_le {α : Type} [DecidableEq α] {d : α} {t : Table α} {P : α → Bool} (hd : P d = false) {i : Nat}
    {v : α} (hv : P v = true → P (Table.get d t i) = true) :
    (Table.set d t i v).countP (fun x => P x.2) ≤ t.countP (fun x => P x.2) := by
  have he := Table.countP_erase_le d t P hd i
  unfold Table.set
  split
  · omega
  · rw [Table.countP_insert]
    by_cases hp : P v = true
    · rw [if_pos (hv hp)] at he
      rw [if_pos hp]
      exact he
    · rw [if_neg hp]; omega

/-- A write that opens no FREE context leaves no more contexts OPEN. -/
theorem State.openContexts_setContext_le (s : State) {j : Nat} {c : Context}
    (h : c.isOpen = true → (s.context j).isOpen = true) :
    (s.setContext j c).openContexts.length ≤ s.openContexts.length := by
  rw [State.openContexts_length, State.openContexts_length]
  exact Table.countP_set_le rfl h

/-- A canonical table of contexts has at most 256 OPEN. -/
theorem State.openContexts_le_of_wf {s : State} (h : s.wf = true) : s.openContexts.length ≤ 256 := by
  simp only [State.wf, State.canonical, Bool.and_eq_true] at h
  obtain ⟨⟨⟨⟨⟨⟨-, hcontexts⟩, -⟩, -⟩, -⟩, -⟩, -⟩ := h
  rw [State.openContexts_length]
  exact List.countP_le_length.trans (Table.length_le hcontexts)

end Sys2Proof.Machine
end

section
/-! What an operation keeps, said once for each: a `BoundaryEffect` keeps the queues within their capacities, the Mixing
Unit within its outputs and the pauses at their marks, and opens no context; a `TableEffect` moreover leaves the events of
the last boundary as they were. Effects compose: each lemma adds one operation to an effect. -/

namespace Sys2Proof.Machine

/-- What every event of a boundary keeps (R28, R92, R94, R172, R173). -/
structure BoundaryEffect (s t : State) : Prop where
  bounded : s.bounded → t.bounded
  marks : s.pausesAtMarks → t.pausesAtMarks
  open_le : t.openContexts.length ≤ s.openContexts.length

/-- What an operation on tables, queues and reports keeps: the laws of the queues, the pulse, the events of the last
boundary and the number of items that complete. -/
structure TableEffect (s t : State) : Prop extends BoundaryEffect s t where
  pulse : t.pulse = s.pulse
  boundary : t.boundary = s.boundary
  completing : t.completing.length = s.completing.length

variable {s t u : State}

theorem BoundaryEffect.refl (s : State) : BoundaryEffect s s := ⟨id, id, le_rfl⟩

theorem BoundaryEffect.trans (h : BoundaryEffect s t) (h' : BoundaryEffect t u) : BoundaryEffect s u :=
  ⟨h'.bounded ∘ h.bounded, h'.marks ∘ h.marks, h'.open_le.trans h.open_le⟩

theorem TableEffect.refl (s : State) : TableEffect s s := ⟨.refl s, rfl, rfl, rfl⟩

theorem TableEffect.trans (h : TableEffect s t) (h' : TableEffect t u) : TableEffect s u :=
  ⟨h.toBoundaryEffect.trans h'.toBoundaryEffect, h'.pulse.trans h.pulse, h'.boundary.trans h.boundary,
    h'.completing.trans h.completing⟩

/-! ### Writes of one record -/

theorem TableEffect.setPosition (h : TableEffect s t) (p : Nat) (v : Position) : TableEffect s (t.setPosition p v) :=
  h.trans ⟨⟨id, id, le_rfl⟩, rfl, rfl, rfl⟩

theorem TableEffect.setEntry (h : TableEffect s t) (e : Nat) (v : Entry) : TableEffect s (t.setEntry e v) :=
  h.trans ⟨⟨id, id, le_rfl⟩, rfl, rfl, rfl⟩

theorem TableEffect.setGroup (h : TableEffect s t) (g : Nat) (v : Group) : TableEffect s (t.setGroup g v) :=
  h.trans ⟨⟨id, id, le_rfl⟩, rfl, rfl, rfl⟩

theorem TableEffect.setChannel (h : TableEffect s t) (c : Nat) (v : Channel) : TableEffect s (t.setChannel c v) :=
  h.trans ⟨⟨id, id, le_rfl⟩, rfl, rfl, rfl⟩

theorem TableEffect.setHighway (h : TableEffect s t) (i : Nat) (v : Highway) : TableEffect s (t.setHighway i v) :=
  h.trans ⟨⟨id, id, le_rfl⟩, rfl, rfl, rfl⟩

/-- A write of a context that opens no FREE one; that a context's call is kept is checked by evaluation. -/
theorem TableEffect.setContext (h : TableEffect s t) {j : Nat} {v : Context}
    (hv : v.isOpen = true → (t.context j).isOpen = true := by exact id) : TableEffect s (t.setContext j v) :=
  h.trans (u := t.setContext j v) ⟨⟨id, id, t.openContexts_setContext_le hv⟩, rfl, rfl, rfl⟩

/-- Whatever an OPEN context becomes, no FREE one is opened. -/
theorem TableEffect.setOpenContext (h : TableEffect s t) {j : Nat} (hopen : (t.context j).isOpen = true) (v : Context) :
    TableEffect s (t.setContext j v) :=
  h.setContext fun _ => hopen

/-! ### The queues and the reservation -/

/-- A join keeps the Report Queue within 64 cells and the Report Pause at its marks (R172, R173). -/
theorem TableEffect.joinCell (h : TableEffect s t) (level : Nat) (cell : OutCell) :
    TableEffect s (t.joinCell level cell) := by
  refine h.trans ?_
  unfold State.joinCell
  split
  · next hroom =>
    refine ⟨⟨fun ⟨hv, hr, ho, hd⟩ => ⟨hv, ?_, ho, hd⟩, fun ⟨hvc, hvs, hrc, hrs⟩ => ⟨hvc, hvs, ?_, ?_⟩, le_rfl⟩,
      rfl, rfl, rfl⟩
    · simpa using hroom
    · simp only [reportPauseAfterJoin, Bool.or_eq_false_iff, decide_eq_false_iff_not, List.length_append,
        List.length_singleton]
      rintro ⟨hclear, hne⟩
      have := hrc hclear
      omega
    · simp only [reportPauseAfterJoin, Bool.or_eq_true, decide_eq_true_eq, List.length_append, List.length_singleton]
      rintro (hset | hmark)
      · have := hrs hset; omega
      · omega
  · split
    · next hgreater =>
      have hsame : (removeNewest (greatestLevel t.reportQueue) t.reportQueue ++ [(⟨level, cell⟩ : QueuedCell)]).length =
          t.reportQueue.length := by
        rw [List.length_append]
        exact removeNewest_length (greatestLevel_attained hgreater)
      refine ⟨⟨fun ⟨hv, hr, ho, hd⟩ => ⟨hv, ?_, ho, hd⟩, fun ⟨hvc, hvs, hrc, hrs⟩ => ⟨hvc, hvs, ?_, ?_⟩, le_rfl⟩,
        rfl, rfl, rfl⟩
      · exact hsame.trans_le hr
      · exact fun hclear => hsame.trans_le (hrc hclear)
      · exact fun hset => (hrs hset).trans_eq hsame.symm
    · exact ⟨⟨id, id, le_rfl⟩, rfl, rfl, rfl⟩

theorem TableEffect.report (h : TableEffect s t) (r : Report) : TableEffect s (t.report r) := by
  unfold State.report
  split
  · exact h.joinCell _ _
  · exact h

theorem TableEffect.accept (h : TableEffect s t) (tag : Byte) (values : Accepted) : TableEffect s (t.accept tag values) :=
  h.joinCell _ _

theorem TableEffect.refuse (h : TableEffect s t) (tag : Byte) (kind : Nat) (reason : Reason) :
    TableEffect s (t.refuse tag kind reason) :=
  h.joinCell _ _

theorem TableEffect.replyTo (h : TableEffect s t) (p : Nat) (r : LineReply) : TableEffect s (t.replyTo p r) :=
  h.setHighway _ _

/-- Voiding items changes no number of items (R29, R95). -/
theorem TableEffect.voidItems (h : TableEffect s t) (e : Nat) : TableEffect s (t.voidItems e) := by
  refine h.trans ⟨⟨?_, ?_, le_rfl⟩, rfl, rfl, ?_⟩
  · rintro ⟨hv, hr, ho, hd⟩
    refine ⟨?_, hr, ?_, fun hdue => ?_⟩
    · simpa [State.voidItems] using hv
    · simpa [State.voidItems] using ho
    · simp [State.voidItems, hd hdue]
  · rintro ⟨hvc, hvs, hr⟩
    refine ⟨fun hp => ?_, fun hp => ?_, hr⟩
    · simpa [State.voidItems] using hvc hp
    · simpa [State.voidItems] using hvs hp
  · simp [State.voidItems]

/-- A shorter reservation needs no more outputs (R27). -/
theorem TableEffect.unreserve (h : TableEffect s t) (j : Nat) :
    TableEffect s { t with reserved := t.reserved.erase j } := by
  refine h.trans ⟨⟨fun ⟨hv, hr, ho, hd⟩ => ⟨hv, hr, ?_, hd⟩, id, le_rfl⟩, rfl, rfl, rfl⟩
  have := List.length_erase_le (a := j) (l := t.reserved)
  dsimp only
  omega

/-! ### Backoff, candidates and admissions -/

theorem TableEffect.waitWithBackoff (h : TableEffect s t) (p : Nat) : TableEffect s (t.waitWithBackoff p) :=
  (h.setPosition _ _).replyTo _ _

theorem TableEffect.rejectWithBackoff (h : TableEffect s t) (p : Nat) (reason : RejectReason) :
    TableEffect s (t.rejectWithBackoff p reason) :=
  (h.setPosition _ _).replyTo _ _

theorem TableEffect.removeCandidate (h : TableEffect s t) (e p : Nat) : TableEffect s (t.removeCandidate e p) :=
  (h.setEntry _ _).setPosition _ _

theorem TableEffect.dropCandidate (h : TableEffect s t) (e : Nat) : TableEffect s (t.dropCandidate e) := by
  unfold State.dropCandidate
  cases (t.entry e).candidate with
  | none => exact h
  | some c =>
    dsimp only
    cases c.stage with
    | awaiting _ => exact h.removeCandidate e c.position
    | queued => exact (h.removeCandidate e c.position).voidItems e

theorem TableEffect.createCandidate (h : TableEffect s t) (e p : Nat) (kind : CandidateKind) :
    TableEffect s (t.createCandidate e p kind) :=
  ((h.setEntry _ _).setPosition _ _).replyTo _ _

theorem TableEffect.releaseContext (h : TableEffect s t) (j : Nat) (call : Call) :
    TableEffect s (t.releaseContext j call) :=
  ((((h.setContext (by simp [Context.isOpen])).setGroup _ _).setPosition _ _).setEntry _ _).unreserve j

theorem TableEffect.closeContext (h : TableEffect s t) (j : Nat) (cause : CloseCause) :
    TableEffect s (t.closeContext j cause) := by
  unfold State.closeContext
  cases (t.context j).call with
  | none => exact h
  | some call => exact (h.releaseContext j call).report _

theorem TableEffect.closeContextOf (h : TableEffect s t) (e : Nat) (cause : CloseCause) :
    TableEffect s (t.closeContextOf e cause) := by
  unfold State.closeContextOf
  cases (t.entry e).context with
  | none => exact h
  | some j => exact h.closeContext j cause

theorem TableEffect.unbind (h : TableEffect s t) (e : Nat) : TableEffect s (t.unbind e) := by
  unfold State.unbind
  dsimp only
  cases (t.entry e).home with
  | none => exact h.setEntry _ _
  | some p => exact (h.setEntry _ _).setPosition _ _

theorem TableEffect.endAdmission (h : TableEffect s t) (e : Nat) (cause : CloseCause) (state : EntryState) :
    TableEffect s (t.endAdmission e cause state) :=
  ((h.closeContextOf e cause).unbind e).setEntry _ _

theorem TableEffect.forceOff (h : TableEffect s t) (e : Nat) (cause : CloseCause) (state : EntryState) :
    TableEffect s (t.forceOff e cause state) := by
  have hended := (h.dropCandidate e).endAdmission e cause state
  unfold State.forceOff
  dsimp only
  cases (t.entry e).home with
  | none => exact hended
  | some p => exact hended.replyTo _ _

theorem TableEffect.removeEntry (h : TableEffect s t) (e : Nat) (cause : CloseCause) (state : EntryState) :
    TableEffect s (t.removeEntry e cause state) := by
  unfold State.removeEntry
  cases (t.entry e).state with
  | admitted => exact h.forceOff e cause state
  | absent | barred | unloaded => exact (h.dropCandidate e).setEntry _ _

/-! ### The outcomes of a verification (R96 to R105) -/

theorem TableEffect.welcome (h : TableEffect s t) (e p : Nat) (renew : Bool) : TableEffect s (t.welcome e p renew) :=
  ((((h.setEntry _ _).setEntry _ _).setPosition _ _).replyTo _ _).report _

theorem TableEffect.displaceOwner (h : TableEffect s t) (p e : Nat) : TableEffect s (t.displaceOwner p e) := by
  unfold State.displaceOwner
  cases (t.position p).owner with
  | none => exact h
  | some x =>
    dsimp only
    split
    · exact h
    · exact ((h.dropCandidate x).endAdmission x _ _).report _

theorem TableEffect.leaveHome (h : TableEffect s t) (e p : Nat) : TableEffect s (t.leaveHome e p) := by
  unfold State.leaveHome
  cases (t.entry e).home with
  | none => exact h
  | some home => exact (((h.closeContextOf e _).unbind e).replyTo _ _).report _

theorem TableEffect.bind (h : TableEffect s t) (e p : Nat) : TableEffect s (t.bind e p) :=
  (h.setEntry _ _).setPosition _ _

theorem TableEffect.applyMatch (h : TableEffect s t) (e p : Nat) (kind : CandidateKind) :
    TableEffect s (t.applyMatch e p kind) := by
  cases kind with
  | first => exact ((h.displaceOwner p e).bind e p).welcome e p false
  | move => exact (((h.leaveHome e p).displaceOwner p e).bind e p).welcome e p false
  | renew => exact h.welcome e p true

theorem TableEffect.barForFailures (h : TableEffect s t) (e p : Nat) (kind : CandidateKind) :
    TableEffect s (t.barForFailures e p kind) := by
  unfold State.barForFailures
  dsimp only
  split
  · exact ((h.endAdmission e _ _).replyTo _ _).report _
  · exact (h.endAdmission e _ _).report _
  · exact (h.setEntry _ _).report _

theorem TableEffect.endRenewal (h : TableEffect s t) (e : Nat) (kind : CandidateKind) :
    TableEffect s (t.endRenewal e kind) := by
  cases kind with
  | first | move => exact h
  | renew => exact h.endAdmission e _ _

theorem TableEffect.applyMismatch (h : TableEffect s t) (e p : Nat) (kind : CandidateKind) :
    TableEffect s (t.applyMismatch e p kind) := by
  have hcounted := h.setEntry e { t.entry e with failures := saturatingNext 7 (t.entry e).failures }
  unfold State.applyMismatch
  dsimp only
  split
  · exact ((hcounted.barForFailures e p kind).rejectWithBackoff p _).report _
  · exact ((hcounted.endRenewal e kind).rejectWithBackoff p _).report _

theorem TableEffect.applyNotReady (h : TableEffect s t) (e p : Nat) (kind : CandidateKind) :
    TableEffect s (t.applyNotReady e p kind) :=
  ((h.endRenewal e kind).replyTo _ _).report _

theorem TableEffect.applyVerdict (h : TableEffect s t) (verdict : Verdict) (e p : Nat) (kind : CandidateKind) :
    TableEffect s (t.applyVerdict verdict e p kind) := by
  cases verdict with
  | matched => exact h.applyMatch e p kind
  | mismatch => exact h.applyMismatch e p kind
  | notReady => exact h.applyNotReady e p kind

/-- The completion of one item is an effect on the tables: it leaves the pulse, the events of the boundary and the number
of items that wait to complete (R95, R96). -/
theorem TableEffect.completeItem (h : TableEffect s t) (f : FlightItem) : TableEffect s (t.completeItem f) := by
  unfold State.completeItem
  split
  · exact h
  · cases (t.entry f.item.entry).candidate with
    | none => exact h
    | some c => exact (h.removeCandidate _ _).applyVerdict _ _ _ _

end Sys2Proof.Machine
end

section
/-! Calls, paths and the events of a boundary as effects. A side that commits a staged key writes the call of its context
anew, which is OPEN; each lemma on the way to a commit carries that along. -/

namespace Sys2Proof.Machine

variable {s t u : State}

/-! ### OPEN contexts along a call -/

theorem State.context_report (s : State) (r : Report) (j : Nat) : (s.report r).context j = s.context j := by
  rw [State.report_frame]; rfl

theorem State.isOpen_setContext {s : State} {j : Nat} {c : Context} (h : c.isOpen = true) :
    ((s.setContext j c).context j).isOpen = true := by
  rw [State.context_setContext_self]; exact h

theorem State.isOpen_report {s : State} {j : Nat} (h : (s.context j).isOpen = true) (r : Report) :
    ((s.report r).context j).isOpen = true := by
  rw [State.context_report]; exact h

theorem Context.isOpen_of_call {c : Context} {call : Call} (h : c.call = some call) : c.isOpen = true := by
  rw [Context.isOpen, h]; rfl

theorem Context.isOpen_numbered (c : Context) : c.numbered.isOpen = c.isOpen := by
  unfold Context.numbered
  split <;> rfl

/-- Owned positions in a call name it (R38). -/
theorem State.call_of_ownedTreatment {s : State} {p j : Nat} {plain : Effective} {shape shape' : Shape} {call : Call}
    (hplain : ∀ shape' j call, plain ≠ .scrambled shape' j call)
    (h : s.ownedTreatment p plain shape = .scrambled shape' j call) : (s.context j).call = some call := by
  unfold State.ownedTreatment at h
  split at h
  · next k c hcall =>
    obtain ⟨-, rfl, rfl⟩ := Effective.scrambled.inj h
    simp only [State.callAt, Option.bind_eq_some_iff, Option.map_eq_some_iff, Prod.mk.injEq] at hcall
    obtain ⟨i, -, c', hc, rfl, rfl⟩ := hcall
    exact hc
  · exact absurd h (hplain _ _ _)

theorem State.call_of_unloopedTreatment {s : State} {p j : Nat} {plain : Effective} {shape shape' : Shape} {call : Call}
    (hplain : ∀ shape' j call, plain ≠ .scrambled shape' j call)
    (h : s.unloopedTreatment p plain shape = .scrambled shape' j call) : (s.context j).call = some call := by
  unfold State.unloopedTreatment at h
  split at h
  · exact State.call_of_ownedTreatment hplain h
  · nomatch h
  · nomatch h

/-- A SCRAMBLED treatment names an OPEN context and its call (R38). -/
theorem State.call_of_effective {s : State} {p j : Nat} {shape : Shape} {call : Call}
    (h : s.effective p = .scrambled shape j call) : (s.context j).call = some call := by
  unfold State.effective at h
  split at h
  · nomatch h
  · nomatch h
  all_goals exact State.call_of_unloopedTreatment (by simp) h

/-! ### The transmit side (R130 to R134) -/

theorem TableEffect.reportStagedTaken (h : TableEffect s t) (j p : Nat) (g : Generation) (otherTaken : Bool) :
    TableEffect s (t.reportStagedTaken j p g otherTaken) := by
  unfold State.reportStagedTaken
  split
  · exact h.report _
  · exact h

theorem TableEffect.txCommit (h : TableEffect s t) {j : Nat} (hopen : (t.context j).isOpen = true) (call : Call)
    (k : StagedKey) : TableEffect s (t.txCommit j call k) :=
  ((h.setOpenContext hopen _).report _).reportStagedTaken _ _ _ _

theorem TableEffect.txSkip (h : TableEffect s t) (j : Nat) (call : Call) (reason : SkipReason) :
    TableEffect s (t.txSkip j call reason) := by
  unfold State.txSkip
  dsimp only
  split
  · exact h
  · exact h.setContext.report _

theorem TableEffect.rekeyDecision (h : TableEffect s t) {j : Nat} (hopen : (t.context j).isOpen = true) (call : Call) :
    TableEffect s (t.rekeyDecision j call) := by
  unfold State.rekeyDecision
  cases (t.context j).staged with
  | none => exact h.txSkip _ _ _
  | some k =>
    dsimp only
    split
    · exact h.txSkip _ _ _
    · exact h.txCommit hopen call k

theorem TableEffect.txAdvance (h : TableEffect s t) (j : Nat) : TableEffect s (t.txAdvance j) := by
  unfold State.txAdvance
  cases hcall : (t.context j).call with
  | none => exact h
  | some call =>
    have hopen := Context.isOpen_of_call hcall
    have hdecide (c : Context) (hc : c.isOpen = true) : TableEffect s ((t.setContext j c).rekeyDecision j call) :=
      (h.setOpenContext hopen c).rekeyDecision (State.isOpen_setContext hc) call
    unfold State.txStep
    dsimp only
    split
    · exact hdecide _ hopen
    · exact h.setOpenContext hopen _

/-! ### The receive side (R142 to R150) -/

theorem TableEffect.rxCommit (h : TableEffect s t) {j : Nat} (hopen : (t.context j).isOpen = true) (call : Call)
    (k : StagedKey) (g : Generation) : TableEffect s (t.rxCommit j call k g) :=
  ((h.setOpenContext hopen _).report _).reportStagedTaken _ _ _ _

theorem TableEffect.enterKeyWait (h : TableEffect s t) (j : Nat) (call : Call) (before : SyncState)
    (cause : KeyMissCause) (g : Generation) : TableEffect s (t.enterKeyWait j call before cause g) := by
  unfold State.enterKeyWait
  dsimp only
  split
  · exact h.setContext
  · exact h.setContext.report _

theorem TableEffect.generationCheck (h : TableEffect s t) {j : Nat} (hopen : (t.context j).isOpen = true) (call : Call)
    (before : SyncState) (g : Generation) : TableEffect s (t.generationCheck j call before g) := by
  unfold State.generationCheck
  dsimp only
  split
  · exact h.setContext
  · split
    · split
      · exact h.rxCommit hopen call _ g
      · exact h.enterKeyWait _ _ _ _ _
    · exact h.enterKeyWait _ _ _ _ _

theorem TableEffect.recognise (h : TableEffect s t) {j : Nat} (hopen : (t.context j).isOpen = true) (call : Call)
    (b : FoundBurst) : TableEffect s (t.recognise j call b) := by
  have hcheck (c : Context) (hc : c.isOpen = true) :
      TableEffect s ((t.setContext j c).generationCheck j call (t.context j).sync b.generation) :=
    (h.setOpenContext hopen c).generationCheck (State.isOpen_setContext hc) call _ _
  have hreport (c : Context) (r : Report) (hc : c.isOpen = true) :
      TableEffect s (((t.setContext j c).report r).generationCheck j call (t.context j).sync b.generation) :=
    ((h.setOpenContext hopen c).report r).generationCheck (State.isOpen_report (State.isOpen_setContext hc) r) call _ _
  unfold State.recognise
  dsimp only
  split
  · exact hreport _ _ hopen
  · exact hcheck _ hopen
  · exact hcheck _ hopen
  · split
    · exact hcheck _ hopen
    · exact hreport _ _ hopen

theorem TableEffect.countMiss (h : TableEffect s t) (j : Nat) (call : Call) : TableEffect s (t.countMiss j call) := by
  unfold State.countMiss
  dsimp only
  split
  · exact h.setContext
  · exact h.setContext.report _

theorem TableEffect.receive (h : TableEffect s t) {j : Nat} (hopen : (t.context j).isOpen = true) (call : Call)
    (code : Byte) : TableEffect s (t.receive j call code) := by
  have hnumbered : (t.context j).numbered.isOpen = true := (Context.isOpen_numbered _).trans hopen
  have hjoined := h.setOpenContext hopen
    { (t.context j).numbered with window := windowAfter (t.context j).numbered.window code }
  unfold State.receive State.decideArrival
  dsimp only
  split
  · exact hjoined.recognise (State.isOpen_setContext hnumbered) call _
  · split
    · exact hjoined.countMiss j call
    · exact hjoined

/-! ### Arrivals (R34, R39 to R46) -/

theorem TableEffect.upstream (h : TableEffect s t) (p : Nat) (code : Byte) : TableEffect s (t.upstream p code) := by
  unfold State.upstream
  cases t.effective p with
  | lineLoop => exact (h.setPosition _ _).setPosition _ _
  | switchLoop | pending | mute => exact h.setPosition _ _
  | clear | tone => exact (h.setPosition _ _).setPosition _ _
  | scrambled shape j call =>
    cases shape with
    | mute => exact h.setPosition _ _
    | clear | tone => exact (h.setPosition _ _).setPosition _ _

theorem TableEffect.downstream (h : TableEffect s t) (p : Nat) (code looped : Byte) :
    TableEffect s (t.downstream p code looped) := by
  unfold State.downstream
  cases heff : t.effective p with
  | lineLoop => exact h
  | switchLoop | pending | mute | tone => exact h.setPosition _ _
  | clear => exact (h.setPosition _ _).setPosition _ _
  | scrambled shape j call =>
    have hopen := Context.isOpen_of_call (State.call_of_effective heff)
    exact ((h.setPosition _ _).setPosition _ _).receive hopen call _

/-! ### The events of a boundary (assumption 2) -/

/-- An event is struck off the list of those due; the take of the Mixing Unit is none of these. -/
theorem BoundaryEffect.strike (h : BoundaryEffect s t) (b : Boundary) (hb : b.takeDue = t.boundary.takeDue := by rfl) :
    BoundaryEffect s { t with boundary := b } :=
  h.trans ⟨fun ⟨hv, hr, ho, hd⟩ => ⟨hv, hr, ho, fun hdue => hd (hb.symm.trans hdue)⟩, id, le_rfl⟩

theorem BoundaryEffect.table (h : BoundaryEffect s t) (h' : TableEffect t u) : BoundaryEffect s u :=
  h.trans h'.toBoundaryEffect

theorem BoundaryEffect.supplyUp (h : BoundaryEffect s t) (p : Nat) : BoundaryEffect s (t.supplyUp p) := by
  unfold State.supplyUp
  split
  · exact (h.strike _).table ((TableEffect.refl _).upstream p 255)
  · exact h

theorem BoundaryEffect.supplyDown (h : BoundaryEffect s t) (p : Nat) : BoundaryEffect s (t.supplyDown p) := by
  unfold State.supplyDown
  split
  · exact (h.strike _).table ((TableEffect.refl _).downstream p 255 255)
  · exact h

theorem BoundaryEffect.takeTx (h : BoundaryEffect s t) (j : Nat) : BoundaryEffect s (t.takeTx j) := by
  unfold State.takeTx
  split
  · have hstruck := h.strike { t.boundary with txDue := t.boundary.txDue.erase j }
    dsimp only
    split
    · exact hstruck
    · next call _ => exact (hstruck.supplyUp call.position).table ((TableEffect.refl _).txAdvance j)
  · exact h

theorem TableEffect.playoutStep (h : TableEffect s t) (c : Nat) : TableEffect s (t.playoutStep c) := by
  unfold State.playoutStep
  dsimp only
  cases (t.channel c).status with
  | stopped | countDone => exact h
  | running =>
    dsimp only
    split
    · exact (h.setChannel _ _).report _
    · exact h.setChannel _ _

theorem BoundaryEffect.takePlayout (h : BoundaryEffect s t) (c : Nat) : BoundaryEffect s (t.takePlayout c) := by
  unfold State.takePlayout
  split
  · exact (h.strike _).table ((TableEffect.refl _).playoutStep c)
  · exact h

theorem BoundaryEffect.takeLineCell (h : BoundaryEffect s t) (i : Nat) : BoundaryEffect s (t.takeLineCell i) := by
  unfold State.takeLineCell
  split
  · exact (h.strike _).table ((TableEffect.refl _).setHighway _ _)
  · exact h

/-- A selection takes one cell and clears the Report Pause at 16 (R172, R173). -/
theorem TableEffect.sendReport (h : TableEffect s t) (cut : Bool) : TableEffect s (t.sendReport cut) := by
  refine h.trans ?_
  unfold State.sendReport
  split
  · exact .refl t
  · split
    · exact ⟨⟨id, id, le_rfl⟩, rfl, rfl, rfl⟩
    · next cell rest hselect =>
      have hlength := selectReport_length hselect
      refine ⟨⟨fun ⟨hv, hr, ho, hd⟩ => ⟨hv, ?_, ho, hd⟩, fun ⟨hvc, hvs, hrc, hrs⟩ => ⟨hvc, hvs, ?_, ?_⟩, le_rfl⟩,
        rfl, rfl, rfl⟩
      · dsimp only; omega
      · simp only [reportPauseAfterTake, Bool.and_eq_false_iff, decide_eq_false_iff_not, not_not]
        rintro (hclear | hmark)
        · have := hrc hclear; omega
        · omega
      · simp only [reportPauseAfterTake, Bool.and_eq_true, decide_eq_true_eq]
        rintro ⟨hset, hne⟩
        have := hrs hset
        omega

theorem BoundaryEffect.takeReport (h : BoundaryEffect s t) : BoundaryEffect s t.takeReport := by
  unfold State.takeReport
  split
  · exact (h.strike _).table ((TableEffect.refl _).sendReport _)
  · exact h

theorem BoundaryEffect.takeSecond (h : BoundaryEffect s t) : BoundaryEffect s t.takeSecond := by
  unfold State.takeSecond
  split
  · exact h.trans ⟨id, id, le_rfl⟩
  · exact h

theorem BoundaryEffect.completeItems (n : Nat) (h : BoundaryEffect s t) :
    BoundaryEffect s (State.completeItems n t) := by
  induction n generalizing t with
  | zero => exact h
  | succ n ih =>
    unfold State.completeItems
    split
    · exact h
    · next f rest _ =>
      have hleft : BoundaryEffect s { t with completing := rest } := h.trans ⟨id, id, le_rfl⟩
      exact ih (hleft.table ((TableEffect.refl _).completeItem f))

theorem BoundaryEffect.complete (h : BoundaryEffect s t) : BoundaryEffect s t.complete := by
  unfold State.complete
  split
  · exact h
  · exact h.takeSecond.completeItems _

/-- The items taken need no more outputs than the reservation leaves of 520, and the take clears the Verification Pause
at 8 or fewer (R28, R94). -/
theorem BoundaryEffect.takeVerifications (h : BoundaryEffect s t) : BoundaryEffect s t.takeVerifications := by
  unfold State.takeVerifications
  split
  · next hdue =>
    refine h.trans ⟨fun ⟨hv, hr, ho, hd⟩ => ⟨?_, hr, ?_, nofun⟩, fun ⟨hvc, hvs, hrc, hrs⟩ => ⟨?_, ?_, hrc, hrs⟩, le_rfl⟩
    · simp only [State.takeItems, List.length_drop]
      omega
    · simp only [State.takeItems, hd hdue, List.nil_append, List.length_map, List.length_take, verificationCapacity]
      omega
    · simp only [State.takeItems, verifyPauseAfterTake, List.length_drop, Bool.and_eq_false_iff,
        decide_eq_false_iff_not]
      rintro (hclear | hmark)
      · have := hvc hclear; omega
      · omega
    · simp only [State.takeItems, verifyPauseAfterTake, List.length_drop, Bool.and_eq_true, decide_eq_true_eq]
      rintro ⟨-, hmark⟩
      exact hmark
  · exact h

/-! ### The deadlines (R77, R86, R87, R108, R110) -/

theorem TableEffect.takeHoldOff (h : TableEffect s t) (p : Nat) : TableEffect s (t.takeHoldOff p) := by
  unfold State.takeHoldOff
  split
  · exact h.setPosition _ _
  · exact h

theorem TableEffect.answerTimeout (h : TableEffect s t) (e : Nat) (c : Candidate) :
    TableEffect s (t.answerTimeout e c) := by
  unfold State.answerTimeout
  dsimp only
  cases c.kind with
  | first | move => exact (h.removeCandidate _ _).replyTo _ _
  | renew => exact (((h.removeCandidate _ _).endAdmission _ _ _).replyTo _ _).report _

theorem TableEffect.takeAnswerDeadline (h : TableEffect s t) (e : Nat) : TableEffect s (t.takeAnswerDeadline e) := by
  unfold State.takeAnswerDeadline
  split
  · exact h
  · split
    · exact h.answerTimeout e _
    · exact h

theorem TableEffect.takeRefresh (h : TableEffect s t) (e : Nat) : TableEffect s (t.takeRefresh e) := by
  have hended := (h.dropCandidate e).endAdmission e .lapsed .absent
  unfold State.takeRefresh State.lapse
  split
  · cases (t.entry e).home with
    | none => exact hended
    | some p => exact (hended.replyTo _ _).report _
  · exact h

theorem TableEffect.takeRechallenge (h : TableEffect s t) (e : Nat) : TableEffect s (t.takeRechallenge e) := by
  unfold State.takeRechallenge
  split
  · split
    · exact h
    · unfold State.rechallengeAt
      split
      · exact h.setEntry _ _
      · exact (h.setEntry _ _).createCandidate _ _ _
  · exact h

/-- All that a boundary brings about keeps the laws of the queues and opens no context. -/
theorem BoundaryEffect.finishBoundary (s : State) : BoundaryEffect s s.finishBoundary :=
  State.finishBoundary_keeps (P := BoundaryEffect s) (fun _ p h => h.supplyUp p) (fun _ p h => h.supplyDown p)
    (fun _ h => h.takeSecond) (fun _ h => h.complete) (fun _ h => h.takeVerifications)
    (fun _ p h => h.table ((TableEffect.refl _).takeHoldOff p))
    (fun _ e h => h.table ((TableEffect.refl _).takeAnswerDeadline e))
    (fun _ e h => h.table ((TableEffect.refl _).takeRefresh e))
    (fun _ e h => h.table ((TableEffect.refl _).takeRechallenge e)) (fun _ j h => h.takeTx j)
    (fun _ c h => h.takePlayout c) (fun _ i h => h.takeLineCell i) (fun _ h => h.takeReport) (.refl s)

/-! ### Carried arrivals and driven slots (R1, R34) -/

theorem BoundaryEffect.supplyBoth (h : BoundaryEffect s t) (p : Nat) : BoundaryEffect s (t.supplyBoth p) :=
  (h.supplyUp p).supplyDown p

theorem BoundaryEffect.setPosition (h : BoundaryEffect s t) (p : Nat) (v : Position) :
    BoundaryEffect s (t.setPosition p v) :=
  h.table ((TableEffect.refl t).setPosition p v)

theorem BoundaryEffect.advanceTxAt (h : BoundaryEffect s t) (p : Nat) : BoundaryEffect s (t.advanceTxAt p) := by
  rcases t.advanceTxAt_cases p with heq | ⟨_, j, _, _, heq⟩
  · rw [heq]; exact h
  · rw [heq]; exact h.takeTx j

theorem BoundaryEffect.upstreamCarried (h : BoundaryEffect s t) (p : Nat) (code : Byte) :
    BoundaryEffect s (t.upstreamCarried p code) :=
  ((((h.supplyBoth p).advanceTxAt p).setPosition _ _).table ((TableEffect.refl _).upstream p code)).setPosition _ _

theorem BoundaryEffect.downstreamCarried (h : BoundaryEffect s t) (p : Nat) (code : Byte) :
    BoundaryEffect s (t.downstreamCarried p code) := by
  have hbefore : BoundaryEffect s (t.supplyBoth p).beforeDownstream :=
    (State.forEach_keeps (P := BoundaryEffect s) (fun _ c hu => hu.takePlayout c) _ (h.supplyBoth p)).takeReport
  exact ((hbefore.setPosition _ _).table ((TableEffect.refl _).downstream p code _)).setPosition _ _

theorem BoundaryEffect.driveSlot (h : BoundaryEffect s t) (p : Nat) (side : Side) :
    BoundaryEffect s (t.driveSlot p side) :=
  (h.supplyBoth p).setPosition _ _

end Sys2Proof.Machine
end

section
/-! Every command as a `StepEffect`: it keeps the queues within their bounds and the pauses at their marks. Cells act on the
state that the last boundary leaves, so their effects follow all that the boundary brings about. -/

namespace Sys2Proof.Machine

variable {s t u : State}

/-- What every command keeps of the laws of the queues. A boundary reserves outputs for every OPEN context, of which there
are at most 256 (R27). -/
structure StepEffect (s t : State) : Prop where
  bounded : s.openContexts.length ≤ 256 → s.bounded → t.bounded
  marks : s.pausesAtMarks → t.pausesAtMarks

theorem BoundaryEffect.stepEffect (h : BoundaryEffect s t) : StepEffect s t := ⟨fun _ => h.bounded, h.marks⟩

theorem TableEffect.stepEffect (h : TableEffect s t) : StepEffect s t := h.toBoundaryEffect.stepEffect

theorem StepEffect.refl (s : State) : StepEffect s s := (TableEffect.refl s).stepEffect

/-- A command that acts on what a boundary leaves. -/
theorem BoundaryEffect.thenStep (h : BoundaryEffect s t) (h' : StepEffect t u) : StepEffect s u :=
  ⟨fun hle hb => h'.bounded (h.open_le.trans hle) (h.bounded hb), h'.marks ∘ h.marks⟩

theorem StepEffect.thenBoundary (h : StepEffect s t) (h' : BoundaryEffect t u) : StepEffect s u :=
  ⟨fun hle hb => h'.bounded (h.bounded hle hb), h'.marks ∘ h.marks⟩

theorem StepEffect.thenTable (h : StepEffect s t) (h' : TableEffect t u) : StepEffect s u :=
  h.thenBoundary h'.toBoundaryEffect

/-! ### Line cells (chapter 5) -/

theorem TableEffect.signOnAt (h : TableEffect s t) (p identity : Nat) : TableEffect s (t.signOnAt p identity) := by
  unfold State.signOnAt State.signOnFree
  split
  · exact h.replyTo _ _
  · split
    · exact h.waitWithBackoff p
    · split
      · exact h.rejectWithBackoff p _
      · split
        · exact (h.rejectWithBackoff p _).report _
        · unfold State.signOnEntry
          split
          · exact h.rejectWithBackoff p _
          · split
            · exact h.rejectWithBackoff p _
            · split
              · exact h.rejectWithBackoff p _
              · exact h.createCandidate _ _ _

/-- An append to a queue of fewer than 32 items keeps its capacity and sets the Verification Pause at 24 (R92, R94). -/
theorem TableEffect.appendItem (h : TableEffect s t) (hroom : t.verifyQueue.length < 32) (e : Nat) (c : Candidate) (p : Nat)
    (response : Response) : TableEffect s (t.appendItem e c p response) := by
  refine h.trans ⟨⟨fun ⟨hv, hr, ho, hd⟩ => ⟨?_, hr, ho, hd⟩, fun ⟨hvc, hvs, hr⟩ => ⟨?_, ?_, hr⟩, le_rfl⟩, rfl, rfl, rfl⟩
  · simp only [State.appendItem, State.setEntry_verifyQueue, List.length_append, List.length_singleton]
    omega
  · simp only [State.appendItem, State.setEntry_verifyQueue, State.setEntry_verifyPause, verifyPauseAfterAppend,
      Bool.or_eq_false_iff, List.length_append, List.length_singleton]
    rintro ⟨hclear, hunmarked⟩
    have := hvc hclear
    have := of_decide_eq_false hunmarked
    omega
  · simp only [State.appendItem, State.setEntry_verifyQueue, State.setEntry_verifyPause, verifyPauseAfterAppend,
      Bool.or_eq_true, List.length_append, List.length_singleton]
    rintro (hset | hmark)
    · have := hvs hset; omega
    · have := of_decide_eq_true hmark; omega

theorem TableEffect.answerAt (h : TableEffect s t) (p : Nat) (response : Response) :
    TableEffect s (t.answerAt p response) := by
  unfold State.answerAt State.answerFor
  split
  · exact h.replyTo _ _
  · split
    · exact h
    · split
      · exact h
      · split
        · exact h.waitWithBackoff p
        · next hroom => exact h.appendItem (Nat.lt_of_not_le hroom) _ _ _ _

theorem TableEffect.keepaliveAt (h : TableEffect s t) (p : Nat) : TableEffect s (t.keepaliveAt p) := by
  unfold State.keepaliveAt State.keepaliveOf
  split
  · exact h.replyTo _ _
  · split
    · exact h.setEntry _ _
    · split
      · exact h.setEntry _ _
      · exact h.setEntry _ _
      · split
        · exact h.replyTo _ _
        · exact h

theorem TableEffect.signOffAt (h : TableEffect s t) (p : Nat) : TableEffect s (t.signOffAt p) := by
  have howner : TableEffect s
      (match (t.position p).owner with
        | none => t
        | some e => t.signOffOwner p e) := by
    split
    · exact h
    · exact ((h.dropCandidate _).endAdmission _ _ _).report _
  unfold State.signOffAt
  dsimp only
  split
  · exact howner.replyTo _ _
  · exact (howner.dropCandidate _).replyTo _ _

/-! ### Entries, groups and keys (chapter 4) -/

theorem TableEffect.loadExtension (h : TableEffect s t) (tag : Byte) (e group identity : Nat) :
    TableEffect s (t.loadExtension tag e group identity) := by
  unfold State.loadExtension
  split
  · exact h.refuse _ _ _
  · split
    · exact h.refuse _ _ _
    · split
      · exact h.refuse _ _ _
      · split
        · exact h.refuse _ _ _
        · exact (h.accept _ _).setEntry _ _

theorem TableEffect.unloadExtension (h : TableEffect s t) (tag : Byte) (e : Nat) :
    TableEffect s (t.unloadExtension tag e) := by
  unfold State.unloadExtension
  split
  · exact h.refuse _ _ _
  · split
    · exact h.refuse _ _ _
    · exact ((h.accept _ _).removeEntry _ _ _).setEntry _ _

theorem TableEffect.forceSignOff (h : TableEffect s t) (tag : Byte) (e : Nat) : TableEffect s (t.forceSignOff tag e) := by
  unfold State.forceSignOff
  split
  · exact h.refuse _ _ _
  · split
    · exact h.refuse _ _ _
    · split
      · exact h.refuse _ _ _
      · exact (h.accept _ _).removeEntry _ _ _

theorem TableEffect.barEntry (h : TableEffect s t) (tag : Byte) (e : Nat) : TableEffect s (t.barEntry tag e) := by
  unfold State.barEntry
  split
  · exact h.refuse _ _ _
  · split
    · exact h.refuse _ _ _
    · exact (h.accept _ _).removeEntry _ _ _

theorem TableEffect.unbarEntry (h : TableEffect s t) (tag : Byte) (e : Nat) : TableEffect s (t.unbarEntry tag e) := by
  unfold State.unbarEntry
  split
  · exact h.refuse _ _ _
  · split
    · exact h.refuse _ _ _
    · exact (h.accept _ _).setEntry _ _

theorem TableEffect.setGroupLimits (h : TableEffect s t) (tag : Byte) (g budget limit : Nat) :
    TableEffect s (t.setGroupLimits tag g budget limit) := by
  unfold State.setGroupLimits
  split
  · exact h.refuse _ _ _
  · exact (h.accept _ _).setGroup _ _

theorem TableEffect.setGroupTimes (h : TableEffect s t) (tag : Byte) (g refresh rechallenge : Nat) :
    TableEffect s (t.setGroupTimes tag g refresh rechallenge) := by
  unfold State.setGroupTimes
  split
  · exact h.refuse _ _ _
  · exact (h.accept _ _).setGroup _ _

theorem TableEffect.writePair (h : TableEffect s t) (pair : Option PairHalf) :
    TableEffect s { t with pairBuffer := pair } :=
  h.trans ⟨⟨id, id, le_rfl⟩, rfl, rfl, rfl⟩

theorem TableEffect.reportBroken (h : TableEffect s t) (broken : Option PairHalf) :
    TableEffect s (t.reportBroken broken) := by
  unfold State.reportBroken
  split
  · exact h
  · exact h.report _

theorem TableEffect.secretHalf (h : TableEffect s t) (tag : Byte) (half : Half) (e : Nat) (first second : KeyWord) :
    TableEffect s (t.secretHalf tag half e first second) := by
  unfold State.secretHalf
  split
  · exact h.refuse _ _ _
  · split
    · exact h.refuse _ _ _
    · exact (((h.setEntry _ _).writePair _).accept _ _).reportBroken _

theorem TableEffect.stagedHalf (h : TableEffect s t) (tag : Byte) (half : Half) (j : Nat) (first second : KeyWord) :
    TableEffect s (t.stagedHalf tag half j first second) := by
  unfold State.stagedHalf
  split
  · exact h.refuse _ _ _
  · split
    · exact h.refuse _ _ _
    · exact (((h.setContext).writePair _).accept _ _).reportBroken _

/-! ### Calls (R117, R118, R121) -/

theorem StepEffect.setContext (s : State) (j : Nat) (v : Context) : StepEffect s (s.setContext j v) := ⟨fun _ => id, id⟩

/-- An accepted OPEN CALL adds a context, but neither an item nor a reservation (R27, assumption 6). -/
theorem StepEffect.openContext (s : State) (tag : Byte) (j p e : Nat) (loop : Bool) (key : Key) :
    StepEffect s (s.openContext tag j p e loop key) := by
  refine .thenTable ?_ ((TableEffect.refl _).accept tag _)
  refine .thenBoundary ?_ ((BoundaryEffect.refl _).strike _)
  refine .thenTable ?_ ((((TableEffect.refl _).setPosition _ _).setEntry _ _).setGroup _ _)
  exact .setContext s j _

theorem StepEffect.refuse (s : State) (tag : Byte) (kind : Nat) (reason : Reason) :
    StepEffect s (s.refuse tag kind reason) :=
  ((TableEffect.refl s).refuse tag kind reason).stepEffect

theorem StepEffect.openCallAt (s : State) (tag : Byte) (j p : Nat) (loop : Bool) :
    StepEffect s (s.openCallAt tag j p loop) := by
  unfold State.openCallAt
  split
  · exact .refuse _ _ _ _
  · split
    · exact .refuse _ _ _ _
    · split
      · exact .refuse _ _ _ _
      · split
        · exact .refuse _ _ _ _
        · split
          · exact .refuse _ _ _ _
          · exact .openContext _ _ _ _ _ _ _

theorem StepEffect.openCall (s : State) (tag : Byte) (j p loopFlag : Nat) :
    StepEffect s (s.openCall tag j p loopFlag) := by
  unfold State.openCall
  split
  · exact .refuse _ _ _ _
  · split
    · exact .refuse _ _ _ _
    · split
      · exact .refuse _ _ _ _
      · split
        · exact .refuse _ _ _ _
        · exact .openCallAt _ _ _ _ _

theorem TableEffect.closeCall (h : TableEffect s t) (tag : Byte) (j : Nat) : TableEffect s (t.closeCall tag j) := by
  unfold State.closeCall
  split
  · exact h.refuse _ _ _
  · exact (h.accept _ _).closeContext _ _

/-! ### Paths and playout (R49, R50, R156 to R159) -/

theorem TableEffect.setPositionTreatment (h : TableEffect s t) (tag : Byte) (p treatment toneChannel : Nat) :
    TableEffect s (t.setPositionTreatment tag p treatment toneChannel) := by
  unfold State.setPositionTreatment
  split
  · exact h.refuse _ _ _
  · split
    · exact h.refuse _ _ _
    · split
      · exact h.refuse _ _ _
      · split
        · exact h.refuse _ _ _
        · exact (h.accept _ _).setPosition _ _

theorem TableEffect.setPositionGain (h : TableEffect s t) (tag : Byte) (p direction gain : Nat) :
    TableEffect s (t.setPositionGain tag p direction gain) := by
  unfold State.setPositionGain
  split
  · exact h.refuse _ _ _
  · split
    · exact h.refuse _ _ _
    · exact (h.accept _ _).setPosition _ _

theorem TableEffect.writePattern (h : TableEffect s t) (m : Memory) : TableEffect s { t with pattern := m } :=
  h.trans ⟨⟨id, id, le_rfl⟩, rfl, rfl, rfl⟩

theorem TableEffect.loadPattern (h : TableEffect s t) (tag : Byte) (a : Nat) (c0 c1 c2 c3 : Byte) :
    TableEffect s (t.loadPattern tag a c0 c1 c2 c3) := by
  unfold State.loadPattern
  split
  · exact h.refuse _ _ _
  · exact (h.writePattern _).accept _ _

theorem TableEffect.setPlayout (h : TableEffect s t) (tag : Byte) (c repeats mode start length : Nat) :
    TableEffect s (t.setPlayout tag c repeats mode start length) := by
  unfold State.setPlayout
  split
  · exact h.refuse _ _ _
  · split
    · exact h.refuse _ _ _
    · split
      · exact h.refuse _ _ _
      · exact (h.setChannel _ _).accept _ _

theorem TableEffect.stopPlayout (h : TableEffect s t) (tag : Byte) (c : Nat) : TableEffect s (t.stopPlayout tag c) := by
  unfold State.stopPlayout
  split
  · exact h.refuse _ _ _
  · exact (h.setChannel _ _).accept _ _

/-! ### SET DEVICE, READ and RESTART (R168 to R170) -/

theorem TableEffect.writeSettings (h : TableEffect s t) (settings : Settings) :
    TableEffect s { t with settings := settings } :=
  h.trans ⟨⟨id, id, le_rfl⟩, rfl, rfl, rfl⟩

theorem TableEffect.countFree (h : TableEffect s t) (n : Nat) : TableEffect s { t with freeCount := n } :=
  h.trans ⟨⟨id, id, le_rfl⟩, rfl, rfl, rfl⟩

theorem TableEffect.setDevice (h : TableEffect s t) (tag : Byte) (n value : Nat) :
    TableEffect s (t.setDevice tag n value) := by
  unfold State.setDevice
  split
  · exact h.refuse _ _ _
  · split
    · exact h.refuse _ _ _
    · split
      · exact h.refuse _ _ _
      · exact (h.writeSettings _).accept _ _

theorem TableEffect.readPage (h : TableEffect s t) (tag : Byte) (kind index part : Nat) :
    TableEffect s (t.readPage tag kind index part) := by
  unfold State.readPage
  split
  · exact h.refuse _ _ _
  · split
    · exact h.refuse _ _ _
    · split
      · exact h.refuse _ _ _
      · exact (h.countFree _).joinCell _ _

/-- RESTART CALLS gives the whole reservation back (R128). -/
theorem StepEffect.restartCalls (s : State) : StepEffect s s.restartCalls := by
  refine ⟨fun _ ⟨hv, hr, ho, hd⟩ => ⟨hv, hr, ?_, hd⟩, id⟩
  simp only [State.restartCalls, List.length_nil]
  omega

/-- RESTART ALL empties the queues and clears both pauses (R93, R94, R173). -/
theorem BoundaryEffect.restartAdmissions (s : State) : BoundaryEffect s s.restartAdmissions := by
  refine ⟨fun ⟨_, _, ho, hd⟩ => ⟨Nat.zero_le _, Nat.zero_le _, ?_, fun hdue => ?_⟩,
    fun _ => ⟨fun _ => Nat.zero_le _, nofun, fun _ => Nat.zero_le _, nofun⟩, le_rfl⟩
  · simpa [State.restartAdmissions] using ho
  · simp [State.restartAdmissions, hd hdue]

theorem TableEffect.reportRestart (h : TableEffect s t) (tag : Byte) (scope : Scope) (closed : Nat) :
    TableEffect s (t.reportRestart tag scope closed) :=
  (h.report _).accept _ _

theorem StepEffect.restart (s : State) (tag : Byte) (scope : Nat) : StepEffect s (s.restart tag scope) := by
  unfold State.restart
  split
  · exact .refuse _ _ _ _
  · exact (StepEffect.restartCalls s).thenTable ((TableEffect.refl _).reportRestart _ _ _)
  · have hcleared := (StepEffect.restartCalls s).thenBoundary (.restartAdmissions _)
    exact hcleared.thenTable ((TableEffect.refl _).reportRestart _ _ _)

/-! ### Reset and frame pulses (R2, R14, R27) -/

theorem StepEffect.hardwareReset (s : State) :
    StepEffect s { State.reset with pending := s.pending, freeCount := s.freeCount } := by
  refine ⟨fun _ _ => ⟨?_, ?_, ?_, ?_⟩, fun _ => ⟨?_, ?_, ?_, ?_⟩⟩ <;> simp [State.reset]

/-- A boundary reserves two outputs for each OPEN context and starts with none in flight (R27, R30). -/
theorem StepEffect.crossBoundary (s : State) (cut : Bool) : StepEffect s (s.crossBoundary cut) := by
  refine ⟨fun hle ⟨hv, hr, _, _⟩ => ⟨hv, hr, ?_, fun _ => rfl⟩, id⟩
  simp only [State.crossBoundary, List.length_nil]
  omega

theorem StepEffect.framePulse (s : State) (early : Bool) : StepEffect s (s.framePulse early) := by
  have hboundary : StepEffect s (s.finishBoundary.crossBoundary (s.cutsShort early)) :=
    (BoundaryEffect.finishBoundary s).thenStep (.crossBoundary _ _)
  unfold State.framePulse
  split
  · have hrunning : TableEffect { s with pulse := .running } _ :=
      State.forEach_keeps (P := TableEffect { s with pulse := .running })
        (event := fun v i => v.sendLine i false) (fun _ _ hu => hu.setHighway _ _) (List.range 4) (.refl _)
    have hpulse : StepEffect s { s with pulse := .running } := ⟨fun _ => id, id⟩
    exact hpulse.thenTable (hrunning.sendReport false)
  · exact hboundary
  · exact hboundary

/-! ### The commands -/

/-- A command that acts only while the pulse is not absent. -/
theorem StepEffect.of_whilePulsed {effect : State → State} (h : s.whilePulsed effect = .next t)
    (he : StepEffect s (effect s)) : StepEffect s t := by
  obtain rfl := Host.Outcome.next.inj h
  split
  · exact .refl s
  · exact he

/-- A management cell, which acts on what the boundary leaves. -/
theorem StepEffect.of_managementCell {effect : State → State} (h : s.managementCell effect = .next t)
    (he : ∀ v, StepEffect v (effect v)) : StepEffect s t :=
  .of_whilePulsed h ((BoundaryEffect.finishBoundary s).thenStep (he _))

/-- A line cell, which acts on what the boundary leaves, if its slot is a speech slot. -/
theorem StepEffect.of_lineCell {highway slot : Nat} {effect : Nat → State → State}
    (h : s.lineCell highway slot effect = .next t) (he : ∀ p v, TableEffect v (effect p v)) : StepEffect s t := by
  refine .of_whilePulsed h ?_
  split
  · exact (BoundaryEffect.finishBoundary s).thenStep (he _ _).stepEffect
  · exact .refl s

/-- Every command keeps the queues within their bounds and the pauses at their marks. -/
theorem exec_stepEffect {c : Instr} (h : exec c s = .next t) : StepEffect s t := by
  cases c
  all_goals simp only [exec] at h
  case hardwareReset => obtain rfl := Host.Outcome.next.inj h; exact .hardwareReset s
  case firstFramePulse => obtain rfl := Host.Outcome.next.inj h; exact .framePulse s false
  case frameBoundary cutShort => obtain rfl := Host.Outcome.next.inj h; exact .framePulse s cutShort
  case framePulseAbsent loss =>
    unfold execFramePulseAbsent at h
    split at h
    · obtain rfl := Host.Outcome.next.inj h; exact ⟨fun _ => id, id⟩
    all_goals obtain rfl := Host.Outcome.next.inj h; exact .refl s
  case lineIdle | lineCellDiscarded | managementIdle => obtain rfl := Host.Outcome.next.inj h; exact .refl s
  case secondCountAdvance => exact .of_whilePulsed h (BoundaryEffect.refl s).takeSecond.stepEffect
  case verificationTake => exact .of_whilePulsed h (BoundaryEffect.refl s).takeVerifications.stepEffect
  case verificationComplete => exact .of_whilePulsed h (BoundaryEffect.refl s).complete.stepEffect
  case lineReplySend highway => exact .of_whilePulsed h ((BoundaryEffect.refl s).takeLineCell _).stepEffect
  case reportSend => exact .of_whilePulsed h (BoundaryEffect.refl s).takeReport.stepEffect
  case upstreamArrival position arrival =>
    cases arrival with
    | carried code => exact .of_whilePulsed h ((BoundaryEffect.refl s).upstreamCarried _ _).stepEffect
    | supplied => exact .of_whilePulsed h ((BoundaryEffect.refl s).supplyUp _).stepEffect
  case downstreamArrival position arrival =>
    cases arrival with
    | carried code => exact .of_whilePulsed h ((BoundaryEffect.refl s).downstreamCarried _ _).stepEffect
    | supplied => exact .of_whilePulsed h ((BoundaryEffect.refl s).supplyDown _).stepEffect
  case txFrameAdvance context => exact .of_whilePulsed h ((BoundaryEffect.refl s).takeTx _).stepEffect
  case playoutAdvance channel => exact .of_whilePulsed h ((BoundaryEffect.refl s).takePlayout _).stepEffect
  case holdOffDeadline position => exact .of_whilePulsed h ((TableEffect.refl s).takeHoldOff _).stepEffect
  case answerDeadline entry => exact .of_whilePulsed h ((TableEffect.refl s).takeAnswerDeadline _).stepEffect
  case refreshLapse entry => exact .of_whilePulsed h ((TableEffect.refl s).takeRefresh _).stepEffect
  case rechallengeDeadline entry => exact .of_whilePulsed h ((TableEffect.refl s).takeRechallenge _).stepEffect
  case waitingCodeSent position side => exact .of_whilePulsed h ((BoundaryEffect.refl s).driveSlot _ _).stepEffect
  case signOn highway slot identity => exact .of_lineCell h fun _ v => (TableEffect.refl v).signOnAt _ _
  case answer highway slot response => exact .of_lineCell h fun _ v => (TableEffect.refl v).answerAt _ _
  case keepalive highway slot => exact .of_lineCell h fun _ v => (TableEffect.refl v).keepaliveAt _
  case signOff highway slot => exact .of_lineCell h fun _ v => (TableEffect.refl v).signOffAt _
  case unknownKind => exact .of_managementCell h fun v => .refuse v _ _ _
  case loadExtension => exact .of_managementCell h fun v => ((TableEffect.refl v).loadExtension _ _ _ _).stepEffect
  case unloadExtension => exact .of_managementCell h fun v => ((TableEffect.refl v).unloadExtension _ _).stepEffect
  case secretHalf => exact .of_managementCell h fun v => ((TableEffect.refl v).secretHalf _ _ _ _ _).stepEffect
  case forceSignOff => exact .of_managementCell h fun v => ((TableEffect.refl v).forceSignOff _ _).stepEffect
  case bar => exact .of_managementCell h fun v => ((TableEffect.refl v).barEntry _ _).stepEffect
  case unbar => exact .of_managementCell h fun v => ((TableEffect.refl v).unbarEntry _ _).stepEffect
  case setGroupLimits => exact .of_managementCell h fun v => ((TableEffect.refl v).setGroupLimits _ _ _ _).stepEffect
  case setGroupTimes => exact .of_managementCell h fun v => ((TableEffect.refl v).setGroupTimes _ _ _ _).stepEffect
  case stagedHalf => exact .of_managementCell h fun v => ((TableEffect.refl v).stagedHalf _ _ _ _ _).stepEffect
  case openCall => exact .of_managementCell h fun v => .openCall v _ _ _ _
  case closeCall => exact .of_managementCell h fun v => ((TableEffect.refl v).closeCall _ _).stepEffect
  case setPositionTreatment =>
    exact .of_managementCell h fun v => ((TableEffect.refl v).setPositionTreatment _ _ _ _).stepEffect
  case setPositionGain => exact .of_managementCell h fun v => ((TableEffect.refl v).setPositionGain _ _ _ _).stepEffect
  case loadPattern => exact .of_managementCell h fun v => ((TableEffect.refl v).loadPattern _ _ _ _ _ _).stepEffect
  case setPlayout => exact .of_managementCell h fun v => ((TableEffect.refl v).setPlayout _ _ _ _ _ _).stepEffect
  case stopPlayout => exact .of_managementCell h fun v => ((TableEffect.refl v).stopPlayout _ _).stepEffect
  case setDevice => exact .of_managementCell h fun v => ((TableEffect.refl v).setDevice _ _ _).stepEffect
  case read => exact .of_managementCell h fun v => ((TableEffect.refl v).readPage _ _ _ _).stepEffect
  case restartCalls => exact .of_managementCell h fun v => .restart v _ _
  case restartAll => exact .of_managementCell h fun v => .restart v _ _

/-- A step is a command on the state with the rest of the queue, which the laws of the queues do not read. -/
theorem step_stepEffect (h : step s = .next t) : StepEffect s t := by
  unfold step at h
  split at h
  · obtain rfl := Host.Outcome.next.inj h
    exact .refl s
  · obtain ⟨hbounded, hmarks⟩ := exec_stepEffect h
    exact ⟨hbounded, hmarks⟩

/-- Settles O54: each step is a `StepEffect`, and a well-formed state has at most 256 contexts to reserve for. -/
theorem everyStepKeepsQueueBounds : Obligations.EveryStepKeepsQueueBounds :=
  ⟨fun _ _ hwf hbounded hstep => (step_stepEffect hstep).bounded (State.openContexts_le_of_wf hwf) hbounded,
    fun _ _ hmarks hstep => (step_stepEffect hstep).marks hmarks⟩

end Sys2Proof.Machine
end

section
/-! Sample arithmetic (chapter 2): the intervals of the encoder, the round trip of a code, and the rounding of the gain
stage. -/

namespace Sys2Proof.Machine

/-! ### The intervals of the encoder (R16) -/

/-- A magnitude, 33 added, lies in the interval of a step of a chord (R16). -/
def inInterval (chord step m : Nat) : Prop :=
  (16 + step) * 2 ^ (chord + 1) ≤ m + 33 ∧ m + 33 < (17 + step) * 2 ^ (chord + 1)

/-- The encoder gives a magnitude the index of its interval. -/
theorem encodeIndex_of_inInterval {chord step m : Nat} (hstep : step < 16) (h : inInterval chord step m) :
    encodeIndex m = 16 * chord + step := by
  obtain ⟨hlow, hhigh⟩ := h
  have hlog : Nat.log2 (m + 33) = chord + 5 := by
    rw [Nat.log2_eq_iff (by omega)]
    have hlower : 2 ^ (chord + 5) = 16 * 2 ^ (chord + 1) := by ring
    have hupper : 2 ^ (chord + 5 + 1) = 32 * 2 ^ (chord + 1) := by ring
    constructor
    · rw [hlower]; exact (Nat.mul_le_mul_right _ (by omega)).trans hlow
    · rw [hupper]; exact hhigh.trans_le (Nat.mul_le_mul_right _ (by omega))
  have hdiv : (m + 33) / 2 ^ (chord + 1) = 16 + step :=
    Nat.div_eq_of_lt_le hlow (by rw [show 16 + step + 1 = 17 + step by omega]; exact hhigh)
  unfold encodeIndex
  simp only [hlog, Nat.add_sub_cancel, hdiv]
  omega

/-- Every magnitude up to 8031 lies in an interval. -/
theorem exists_inInterval {m : Nat} (hm : m ≤ 8031) :
    ∃ chord step, chord < 8 ∧ step < 16 ∧ inInterval chord step m := by
  obtain ⟨hlow, hhigh⟩ := (Nat.log2_eq_iff (n := m + 33) (by omega)).1 rfl
  generalize Nat.log2 (m + 33) = k at hlow hhigh
  have hk5 : 5 ≤ k := by
    by_contra hlt
    have : 2 ^ (k + 1) ≤ 2 ^ 5 := Nat.pow_le_pow_right (by omega) (by omega)
    omega
  have hk12 : k ≤ 12 := by
    by_contra hlt
    have : 2 ^ 13 ≤ 2 ^ k := Nat.pow_le_pow_right (by omega) (by omega)
    omega
  obtain ⟨chord, rfl⟩ := Nat.exists_eq_add_of_le hk5
  have hlower : 2 ^ (5 + chord) = 16 * 2 ^ (chord + 1) := by ring
  have hupper : 2 ^ (5 + chord + 1) = 32 * 2 ^ (chord + 1) := by ring
  rw [hlower] at hlow
  rw [hupper] at hhigh
  have hpos : 0 < 2 ^ (chord + 1) := Nat.two_pow_pos _
  have hge : 16 ≤ (m + 33) / 2 ^ (chord + 1) := (Nat.le_div_iff_mul_le hpos).2 hlow
  have hlt : (m + 33) / 2 ^ (chord + 1) < 32 := (Nat.div_lt_iff_lt_mul hpos).2 hhigh
  refine ⟨chord, (m + 33) / 2 ^ (chord + 1) - 16, by omega, by omega, ?_, ?_⟩
  · rw [Nat.add_sub_cancel' hge]
    exact Nat.div_mul_le_self _ _
  · rw [show 17 + ((m + 33) / 2 ^ (chord + 1) - 16) = (m + 33) / 2 ^ (chord + 1) + 1 by omega, mul_comm]
    exact Nat.lt_mul_div_succ _ hpos

theorem encodeIndex_le {m : Nat} (hm : m ≤ 8031) : encodeIndex m ≤ 127 := by
  obtain ⟨chord, step, hchord, hstep, h⟩ := exists_inInterval hm
  rw [encodeIndex_of_inInterval hstep h]
  omega

/-- Only magnitude 0 has the index 0. -/
theorem encodeIndex_pos {m : Nat} (hm : m ≤ 8031) (hpos : 0 < m) : 0 < encodeIndex m := by
  obtain ⟨chord, step, -, hstep, h⟩ := exists_inInterval hm
  rw [encodeIndex_of_inInterval hstep h]
  by_contra hzero
  obtain ⟨rfl, rfl⟩ : chord = 0 ∧ step = 0 := by omega
  obtain ⟨-, hhigh⟩ := h
  omega

/-! ### The magnitudes of the decoder (R15) -/

theorem indexMagnitude_add (q : Nat) : indexMagnitude q + 33 = (2 * (q % 16) + 33) * 2 ^ (q / 16) := by
  have hmul := Nat.le_mul_of_pos_right (2 * (q % 16) + 33) (Nat.two_pow_pos (q / 16))
  exact Nat.sub_add_cancel (by omega)

theorem indexMagnitude_inInterval (q : Nat) : inInterval (q / 16) (q % 16) (indexMagnitude q) := by
  have hpos : 0 < 2 ^ (q / 16) := Nat.two_pow_pos _
  unfold inInterval
  rw [indexMagnitude_add, pow_succ]
  constructor <;> nlinarith

/-- The encoder gives the index of a decoded magnitude back (R17). -/
theorem encodeIndex_indexMagnitude (q : Nat) : encodeIndex (indexMagnitude q) = q := by
  rw [encodeIndex_of_inInterval (Nat.mod_lt _ (by omega)) (indexMagnitude_inInterval q)]
  omega

theorem indexMagnitude_le {q : Nat} (hq : q < 128) : indexMagnitude q ≤ 8031 := by
  have hpow : 2 ^ (q / 16) ≤ 2 ^ 7 := Nat.pow_le_pow_right (by omega) (by omega)
  have hmul := Nat.mul_le_mul (show 2 * (q % 16) + 33 ≤ 63 by omega) hpow
  have := indexMagnitude_add q
  omega

theorem indexMagnitude_zero : indexMagnitude 0 = 0 := rfl

theorem indexMagnitude_eq_zero_iff {q : Nat} : indexMagnitude q = 0 ↔ q = 0 := by
  constructor
  · intro h
    have hindex := encodeIndex_indexMagnitude q
    rw [h, ← indexMagnitude_zero, encodeIndex_indexMagnitude] at hindex
    exact hindex.symm
  · rintro rfl
    exact indexMagnitude_zero

/-! ### The linear value of a code (R15) -/

theorem linearValue_of_positive {c : Byte} (h : 128 ≤ c.toNat) : linearValue c = indexMagnitude (255 - c.toNat) := by
  have := c.isLt
  rw [linearValue, if_pos h, magnitudeIndex, show 127 - c.toNat % 128 = 255 - c.toNat by omega]

theorem linearValue_of_negative {c : Byte} (h : c.toNat < 128) :
    linearValue c = -(indexMagnitude (127 - c.toNat) : Int) := by
  rw [linearValue, if_neg (by omega), magnitudeIndex, Nat.mod_eq_of_lt h]

theorem linearValue_natAbs_le (c : Byte) : (linearValue c).natAbs ≤ 8031 := by
  have := c.isLt
  rcases Nat.lt_or_ge c.toNat 128 with h | h
  · have := indexMagnitude_le (q := 127 - c.toNat) (by omega)
    rw [linearValue_of_negative h]
    omega
  · have := indexMagnitude_le (q := 255 - c.toNat) (by omega)
    rw [linearValue_of_positive h]
    omega

/-- The two codes of magnitude 0 (R17). -/
theorem linearValue_eq_zero_iff {c : Byte} : linearValue c = 0 ↔ c = 127 ∨ c = 255 := by
  have := c.isLt
  rcases Nat.lt_or_ge c.toNat 128 with h | h
  · rw [linearValue_of_negative h, neg_eq_zero, Int.natCast_eq_zero, indexMagnitude_eq_zero_iff]
    bv_omega
  · rw [linearValue_of_positive h, Int.natCast_eq_zero, indexMagnitude_eq_zero_iff]
    bv_omega

/-- The sign of a nonzero value is that of its code (R17). -/
theorem linearValue_pos_iff {c : Byte} (h0 : linearValue c ≠ 0) : 0 < linearValue c ↔ 128 ≤ c.toNat := by
  rcases Nat.lt_or_ge c.toNat 128 with h | h
  · rw [linearValue_of_negative h]; omega
  · rw [linearValue_of_positive h] at h0 ⊢; omega

/-! ### The encoder (R16) -/

theorem clampLinear_eq (l : Int) : clampLinear l = if 8031 < l then 8031 else if l < -8031 then -8031 else l := by
  simp only [clampLinear, fullScale]
  split
  · omega
  · split <;> omega

theorem clampLinear_natAbs_le (l : Int) : (clampLinear l).natAbs ≤ 8031 := by
  simp only [clampLinear, fullScale]
  omega

theorem clampLinear_of_natAbs_le {l : Int} (h : l.natAbs ≤ 8031) : clampLinear l = l := by
  simp only [clampLinear, fullScale]
  omega

/-- A clamp before the encoder's own changes nothing (R16, R20). -/
theorem encodeLinear_clampLinear (l : Int) : encodeLinear (clampLinear l) = encodeLinear l := by
  rw [encodeLinear, clampLinear_of_natAbs_le (clampLinear_natAbs_le l), encodeLinear]

theorem encodeLinear_toNat_of_nonneg {m : Nat} (hm : m ≤ 8031) :
    (encodeLinear (m : Int)).toNat = 255 - encodeIndex m := by
  rw [encodeLinear, clampLinear_of_natAbs_le (by simpa using hm), if_pos (Int.natCast_nonneg m), Int.natAbs_natCast]
  exact Nat.mod_eq_of_lt (by omega)

theorem encodeLinear_toNat_of_neg {m : Nat} (hm : m ≤ 8031) (hpos : 0 < m) :
    (encodeLinear (-(m : Int))).toNat = 127 - encodeIndex m := by
  rw [encodeLinear, clampLinear_of_natAbs_le (by simpa using hm), if_neg (by omega), Int.natAbs_neg, Int.natAbs_natCast]
  exact Nat.mod_eq_of_lt (by omega)

theorem encodeLinear_zero : encodeLinear 0 = 255 := by decide

/-- No value is encoded as 127, the second code of magnitude 0 (R17). -/
theorem encodeLinear_ne_127 (l : Int) : encodeLinear l ≠ 127 := by
  rw [← encodeLinear_clampLinear]
  have hle := clampLinear_natAbs_le l
  generalize clampLinear l = v at hle
  intro h
  have h127 : (encodeLinear v).toNat = 127 := by rw [h]; rfl
  have hindex := encodeIndex_le hle
  rcases Int.natAbs_eq v with hv | hv
  · rw [hv, encodeLinear_toNat_of_nonneg hle] at h127
    omega
  · rcases Nat.eq_zero_or_pos v.natAbs with hzero | hpos
    · rw [Int.natAbs_eq_zero.1 hzero, encodeLinear_zero] at h
      exact absurd h (by decide)
    · have := encodeIndex_pos hle hpos
      rw [hv, encodeLinear_toNat_of_neg hle hpos] at h127
      omega

/-- Decoding and encoding give a code back, but for 127 (R17). -/
theorem encodeLinear_linearValue (c : Byte) : encodeLinear (linearValue c) = if c = 127 then 255 else c := by
  have hc := c.isLt
  rcases Nat.lt_or_ge c.toNat 128 with h | h
  · split
    · next h127 => rw [linearValue_eq_zero_iff.2 (.inl h127), encodeLinear_zero]
    · next h127 =>
      have hindex : 127 - c.toNat ≠ 0 := by bv_omega
      have hpos := Nat.pos_of_ne_zero (mt indexMagnitude_eq_zero_iff.1 hindex)
      apply BitVec.eq_of_toNat_eq
      rw [linearValue_of_negative h, encodeLinear_toNat_of_neg (indexMagnitude_le (by omega)) hpos,
        encodeIndex_indexMagnitude]
      omega
  · have h127 : c ≠ 127 := by rintro rfl; exact absurd h (by decide)
    rw [if_neg h127]
    apply BitVec.eq_of_toNat_eq
    rw [linearValue_of_positive h, encodeLinear_toNat_of_nonneg (indexMagnitude_le (by omega)), encodeIndex_indexMagnitude]
    omega

/-! ### The gain stage (R18 to R20) -/

theorem scaled_natAbs (l : Int) (gain : Nat) : (scaled l gain).natAbs = ((l * gain).natAbs + 128) / 256 := by
  simp only [scaled]
  split <;> omega

theorem scaled_nonneg {l : Int} {gain : Nat} (h : 0 ≤ l * gain) : 0 ≤ scaled l gain := by
  simp only [scaled, if_pos h]
  omega

theorem scaled_nonpos {l : Int} {gain : Nat} (h : l * gain < 0) : scaled l gain ≤ 0 := by
  simp only [scaled, if_neg (not_le.2 h)]
  omega

theorem scaled_of_mul_eq_zero {l : Int} {gain : Nat} (h : l * gain = 0) : scaled l gain = 0 := by
  simp [scaled, h]

theorem gainCode_of_ne {gain : Nat} (h : gain ≠ 256) (c : Byte) :
    gainCode gain c = encodeLinear (scaled (linearValue c) gain) :=
  if_neg h

/-- Away from unity a product of 0 gives 255 (R17, R19). -/
theorem gainCode_of_mul_eq_zero {gain : Nat} {c : Byte} (h : gain ≠ 256) (h0 : linearValue c * gain = 0) :
    gainCode gain c = 255 := by
  rw [gainCode_of_ne h, scaled_of_mul_eq_zero h0, encodeLinear_zero]

theorem gainClamps_iff {gain : Nat} (h : gain ≠ 256) (c : Byte) :
    gainClamps gain c = true ↔ 8031 < (scaled (linearValue c) gain).natAbs := by
  rw [gainClamps, decide_eq_true h, Bool.true_and, decide_eq_true_iff, fullScale]

/-- A product of a linear value and a gain is at most the gain times full scale (R19). -/
theorem linearValue_mul_natAbs_le (c : Byte) {gain bound : Nat} (h : gain ≤ bound) :
    (linearValue c * gain).natAbs ≤ 8031 * bound := by
  rw [Int.natAbs_mul, Int.natAbs_natCast]
  exact Nat.mul_le_mul (linearValue_natAbs_le c) h

/-! ### The keystream (R22) -/

theorem keystream_toNat {k : Key} {n : FrameNumber} {v w : Nat}
    (hv : v = (n.toNat % 65521 + k.k0.toNat) % 65521 * (k.k1.toNat % 65520 + 1) % 65521)
    (hw : w = (v + k.k2.toNat + n.toNat / 65521 * k.k3.toNat) % 65536) :
    (keystream k n).toNat = (w % 256 + w / 256) % 256 := by
  subst hv hw
  rfl

/-- The keystream reads k1 through its multiplier only (R22). -/
theorem keystream_congr_k1 {k0 k1 k1' k2 k3 : KeyWord} (h : k1.toNat % 65520 = k1'.toNat % 65520) (n : FrameNumber) :
    keystream ⟨k0, k1, k2, k3⟩ n = keystream ⟨k0, k1', k2, k3⟩ n := by
  simp only [keystream, keystreamPrime, Nat.reduceSub, h]

/-- The keystream reads the remainder of k0 only (R22). -/
theorem keystream_congr_k0 {k0 k0' k1 k2 k3 : KeyWord} (h : k0.toNat % 65521 = k0'.toNat % 65521) (n : FrameNumber) :
    keystream ⟨k0, k1, k2, k3⟩ n = keystream ⟨k0', k1, k2, k3⟩ n := by
  have hsum : (n.toNat % 65521 + k0.toNat) % 65521 = (n.toNat % 65521 + k0'.toNat) % 65521 := Nat.ModEq.add_left _ h
  simp only [keystream, keystreamPrime, hsum]

/-! ### Scrambling (R23, R24, R138, R144) -/

theorem descramble_scramble (c z : Byte) : descramble (scramble c z) z = c := by
  simp [descramble, scramble]

/-- Outside a burst the transmit side scrambles (R138). -/
theorem transmitCode_of_le {span : Nat} {c : Context} (h : 8 ≤ c.txFrame.toNat % span) (call : Call) (clear : Byte) :
    transmitCode span c call clear = scramble clear (keystream call.txKey c.txFrame) :=
  if_neg (Nat.not_lt.2 h)

/-- An unmarked code is released descrambled while the receive side is aligned in any way (R144). -/
theorem State.releaseCode_of_aligned (s : State) (p : Nat) {c : Context} (call : Call) (code : Byte)
    (h : c.sync = .aligned ∨ c.sync = .freewheel) :
    s.releaseCode p c call ⟨code, false⟩ =
      ⟨gainCode (s.position p).downGain (descramble code (keystream call.rxKey (releasedNumber c))),
        gainCode (s.position p).downGain (descramble code (keystream call.rxKey (releasedNumber c))),
        gainClamps (s.position p).downGain (descramble code (keystream call.rxKey (releasedNumber c)))⟩ := by
  rcases h with h | h <;> simp [State.releaseCode, h]

/-! ### The obligations -/

/-- Settles O11: both directions of the round trip come from the intervals of the encoder, in which each decoded
magnitude lies. -/
theorem codesEncodeAndDecode : Obligations.CodesEncodeAndDecode := by
  refine ⟨⟨encodeLinear_linearValue,
      fun c => ⟨linearValue_natAbs_le c, linearValue_eq_zero_iff, linearValue_pos_iff⟩,
      fun c gain hgain h0 => gainCode_of_mul_eq_zero hgain (by rw [h0, zero_mul]), rfl⟩,
    ⟨fun chord step m _ hstep hlow hhigh hm => ⟨?_, fun hpos => ?_⟩, fun l hl => ?_, fun l hl => ?_,
      fun m hm => exists_inInterval hm, encodeLinear_ne_127⟩,
    fun q magnitude hq hmagnitude => ⟨?_, ?_⟩⟩
  · rw [encodeLinear_toNat_of_nonneg hm, encodeIndex_of_inInterval hstep ⟨hlow, hhigh⟩]
  · rw [encodeLinear_toNat_of_neg hm hpos, encodeIndex_of_inInterval hstep ⟨hlow, hhigh⟩]
  · rw [← encodeLinear_clampLinear, clampLinear_eq, if_pos hl]
  · rw [← encodeLinear_clampLinear, clampLinear_eq, if_neg (by omega), if_pos hl]
  all_goals
    have heq : magnitude = indexMagnitude q := by have := indexMagnitude_add q; omega
    subst heq
  · have hcode : (BitVec.ofNat 8 (255 - q)).toNat = 255 - q := Nat.mod_eq_of_lt (by omega)
    rw [linearValue_of_positive (by omega), hcode, Nat.sub_sub_self (by omega)]
  · have hcode : (BitVec.ofNat 8 (127 - q)).toNat = 127 - q := Nat.mod_eq_of_lt (by omega)
    rw [linearValue_of_negative (by omega), hcode, Nat.sub_sub_self (by omega)]

/-- Settles O12: the value after the gain stage is `scaled`, whose magnitude and sign are those of the rounded product. -/
theorem gainRoundsToNearest : Obligations.GainRoundsToNearest := by
  intro gain c hle hne
  have hproduct := linearValue_mul_natAbs_le c hle
  have habs := scaled_natAbs (linearValue c) gain
  refine ⟨hproduct, scaled (linearValue c) gain, habs, fun h => scaled_nonneg h.le, scaled_nonpos, scaled_of_mul_eq_zero,
    by omega, rfl, gainClamps_iff hne c, ?_, ?_, ?_, fun hlt => ?_⟩
  · rw [gainCode_of_ne hne, ← encodeLinear_clampLinear, clampLinear_eq]
  · rintro rfl
    exact gainCode_of_mul_eq_zero hne (mul_zero _)
  · rintro rfl
    exact gainCode_of_mul_eq_zero hne (by rw [linearValue_eq_zero_iff.2 (.inl rfl), zero_mul])
  · have hbelow := linearValue_mul_natAbs_le c (Nat.le_of_lt_succ hlt)
    rw [Bool.eq_false_iff, Ne, gainClamps_iff hne]
    omega

/-- Settles O13: descrambling with the byte that scrambled, and the two words of a key that the keystream reduces. -/
theorem scramblingIsUndone : Obligations.ScramblingIsUndone := by
  refine ⟨fun span c d sent received clear s p hburst hkey hnumber hsync => ?_,
    fun k0 k2 k3 n => keystream_congr_k1 (k1 := 0) (k1' := 65520) (by decide) n,
    fun k0 k1 k2 k3 n hk0 => keystream_congr_k0 ?_ n,
    fun k n v w => keystream_toNat⟩
  · have hsent := transmitCode_of_le hburst sent clear
    refine ⟨hsent, ?_⟩
    have hnumbered : releasedNumber d = c.txFrame := hnumber
    rw [State.releaseCode_of_aligned s p received _ hsync, hsent, hnumbered, ← hkey, descramble_scramble]
  · bv_omega

end Sys2Proof.Machine
end

section
/-! Verification items (R25 to R30, R95, R96) and RESTART (R128, R170): what the take and each completion leave, and what
a RESTART leaves in every record. -/

namespace Sys2Proof.Machine

/-! ### The outcome of a verification (R25, R26) -/

theorem verdictOf_some (secret : Key) (item : VerifyItem) :
    verdictOf (some secret) item =
      if expectedResponse secret item.challenge = item.response then .matched else .mismatch := rfl

theorem expectedResponse_eq_iff (secret : Key) (challenge : FrameNumber) (r : Response) :
    expectedResponse secret challenge = r ↔
      r.b1 = keystream secret challenge ∧ r.b2 = keystream secret (challenge + 1) ∧
        r.b3 = keystream secret (challenge + 2) ∧ r.b4 = keystream secret (challenge + 3) := by
  obtain ⟨b1, b2, b3, b4⟩ := r
  simp only [expectedResponse, Response.mk.injEq, eq_comm]

theorem verdictOf_matched_iff (secret : Key) (item : VerifyItem) :
    verdictOf (some secret) item = .matched ↔ expectedResponse secret item.challenge = item.response := by
  rw [verdictOf_some]
  split
  · next h => exact ⟨fun _ => h, fun _ => rfl⟩
  · next h => exact ⟨nofun, fun h' => absurd h' h⟩

/-! ### The take and the completions (R28 to R30) -/

/-- While the pulse is not absent an event of the boundary takes place. -/
theorem State.whilePulsed_of_pulsed {s : State} (h : s.pulsed) (effect : State → State) :
    s.whilePulsed effect = .next (effect s) := by
  rw [State.whilePulsed, if_neg (by rw [h]; exact Bool.false_ne_true)]

theorem exec_verificationTake {s : State} (h : s.pulsed) : exec .verificationTake s = .next s.takeVerifications :=
  State.whilePulsed_of_pulsed h _

theorem exec_verificationComplete {s : State} (h : s.pulsed) : exec .verificationComplete s = .next s.complete :=
  State.whilePulsed_of_pulsed h _

theorem exec_secondCountAdvance {s : State} (h : s.pulsed) : exec .secondCountAdvance s = .next s.takeSecond :=
  State.whilePulsed_of_pulsed h _

theorem verifyPauseAfterTake_eq (pause : Bool) (count : Nat) :
    verifyPauseAfterTake pause count = if count ≤ 8 then false else pause := by
  unfold verifyPauseAfterTake
  split
  · next h => rw [decide_eq_false (Nat.not_lt.2 h), Bool.and_false]
  · next h => rw [decide_eq_true (Nat.lt_of_not_le h), Bool.and_true]

/-- The completions, as many as wait, once the Second Count has advanced (R30, R101). -/
theorem State.complete_eq (s : State) (h : s.boundary.secondDue = false) :
    s.complete = State.completeItems s.completing.length s := by
  unfold State.complete
  split
  · next hnil => rw [hnil]; rfl
  · rw [State.takeSecond_idle h]

theorem State.completeItems_cons (n : Nat) {s : State} {f : FlightItem} {rest : List FlightItem}
    (h : s.completing = f :: rest) :
    State.completeItems (n + 1) s = State.completeItems n (State.completeItem { s with completing := rest } f) := by
  rw [State.completeItems, h]

/-- The first item completes, and the rest as that leaves the tables (R30, R96). -/
theorem State.complete_cons {s : State} {f : FlightItem} {rest : List FlightItem} (h : s.completing = f :: rest)
    (hsecond : s.boundary.secondDue = false) :
    s.complete = (State.completeItem { s with completing := rest } f).complete := by
  have heffect := (TableEffect.refl { s with completing := rest }).completeItem f
  have hdue : (State.completeItem { s with completing := rest } f).boundary.secondDue = false := by
    rw [heffect.boundary]; exact hsecond
  rw [State.complete_eq s hsecond, State.complete_eq _ hdue, heffect.completing, h, List.length_cons,
    State.completeItems_cons _ h]

/-- A completion leaves the pulse as it was. -/
theorem State.pulsed_completeItem {s : State} (h : s.pulsed) (rest : List FlightItem) (f : FlightItem) :
    (State.completeItem { s with completing := rest } f).pulsed := by
  have heffect := (TableEffect.refl { s with completing := rest }).completeItem f
  rw [State.pulsed, heffect.pulse]
  exact h

theorem State.takeSecond_due {s : State} (h : s.boundary.secondDue = true) :
    s.takeSecond =
      { s with framePrescale := 0, secondCount := s.secondCount + 1, boundary := { s.boundary with secondDue := false } } :=
  if_pos h

/-- Completions begin with an advance of the Second Count that is due (R101, R109). -/
theorem State.complete_takeSecond (s : State) (h : s.completing ≠ []) : s.takeSecond.complete = s.complete := by
  cases hdue : s.boundary.secondDue with
  | false => rw [State.takeSecond_idle hdue]
  | true =>
    have hstruck : s.takeSecond.boundary.secondDue = false := by rw [State.takeSecond_due hdue]
    have hsame : s.takeSecond.completing = s.completing := by rw [State.takeSecond_due hdue]
    obtain ⟨f, rest, hcons⟩ := List.exists_cons_of_ne_nil h
    rw [State.complete_eq _ hstruck, hsame]
    simp only [State.complete, hcons]

/-! ### The obligations of verification -/

/-- Settles O15: a verdict compares the four bytes, and the take is made exactly while it is due. -/
theorem mixingUnitVerifies : Obligations.MixingUnitVerifies := by
  refine ⟨⟨fun _ => rfl, fun secret item => ⟨?_, fun h => ?_⟩⟩, fun s hpulsed => ⟨fun hdue => ?_, fun hdue => ?_⟩⟩
  · rw [verdictOf_matched_iff, expectedResponse_eq_iff]
  · rw [Ne, verdictOf_matched_iff] at h
    rw [verdictOf_some, if_neg h]
  · rw [exec_verificationTake hpulsed, State.takeVerifications, if_pos hdue]
    simp only [State.takeItems, verificationCapacity, verifyPauseAfterTake_eq, List.length_drop]
  · rw [exec_verificationTake hpulsed, State.takeVerifications_idle hdue]

/-- Settles O16: `complete_cons` takes the first item and leaves the rest to the next completion. -/
theorem itemsCompleteInOrder : Obligations.ItemsCompleteInOrder := by
  intro s hpulsed
  have hcons (f : FlightItem) (rest : List FlightItem) (h : s.completing = f :: rest)
      (hsecond : s.boundary.secondDue = false) :
      exec .verificationComplete s =
        exec .verificationComplete (State.completeItem { s with completing := rest } f) := by
    rw [exec_verificationComplete hpulsed, State.complete_cons h hsecond,
      exec_verificationComplete (State.pulsed_completeItem hpulsed rest f)]
  refine ⟨fun h => ?_, hcons, fun f h hsecond => ?_, fun f rest u h hdue hu => ?_, fun f t hvoid => if_pos hvoid⟩
  · rw [exec_verificationComplete hpulsed, State.complete_idle h]
  · have heffect := (TableEffect.refl { s with completing := [] }).completeItem f
    rw [hcons f [] h hsecond, exec_verificationComplete (State.pulsed_completeItem hpulsed [] f),
      State.complete_idle (List.eq_nil_of_length_eq_zero heffect.completing)]
  · rw [exec_secondCountAdvance hpulsed] at hu
    obtain rfl := Host.Outcome.next.inj hu
    have hpulsed' : s.takeSecond.pulsed := by rw [State.takeSecond_due hdue]; exact hpulsed
    rw [exec_verificationComplete hpulsed, exec_verificationComplete hpulsed',
      State.complete_takeSecond s (by rw [h]; exact List.cons_ne_nil _ _)]

/-! ### The records after a RESTART (R33, R53, R128, R170) -/

/-- A RESTART's answers change the Report Queue, the Report Pause and Lost Reports only. -/
theorem State.reportRestart_frame (s : State) (tag : Byte) (scope : Scope) (closed : Nat) :
    s.reportRestart tag scope closed =
      { s with
        reportQueue := (s.reportRestart tag scope closed).reportQueue
        reportPause := (s.reportRestart tag scope closed).reportPause
        lostReports := (s.reportRestart tag scope closed).lostReports } := by
  have hanswer := (s.report (.restarted scope closed)).joinCell_frame 0 (.accepted tag (.restart scope))
  have hreport := s.report_frame (.restarted scope closed)
  unfold State.reportRestart State.accept
  generalize s.report (.restarted scope closed) = u at hanswer hreport ⊢
  generalize u.joinCell 0 (.accepted tag (.restart scope)) = v at hanswer ⊢
  rw [hreport] at hanswer
  exact hanswer

/-- A RESTART's answers read nothing but the queue and the level settings. -/
theorem SameReports.reportRestart {s t : State} (h : SameReports s t) (hs : s.settings = t.settings) (tag : Byte)
    (scope : Scope) (closed : Nat) :
    SameReports (s.reportRestart tag scope closed) ((t.report (.restarted scope closed)).accepted tag (.restart scope)) :=
  (h.report hs _).joinCell _ _

/-- The canonical form of the tables that a RESTART rewrites. -/
theorem State.restartTables_wf {s : State} (h : s.wf = true) :
    Table.wf 480 {} s.positions = true ∧ Table.wf 1024 {} s.entries = true ∧ Table.wf 16 {} s.groups = true ∧
      Table.wf 256 {} s.contexts = true ∧ Table.wf 4 {} s.highways = true := by
  simp only [State.wf, State.canonical, Bool.and_eq_true] at h
  obtain ⟨⟨⟨⟨⟨⟨⟨⟨hpositions, hentries⟩, hgroups⟩, hcontexts⟩, -⟩, hhighways⟩, -⟩, -⟩, -⟩ := h
  exact ⟨hpositions, hentries, hgroups, hcontexts, hhighways⟩

section

variable {s : State} (h : s.wf = true)
include h

theorem State.context_restartCalls (j : Nat) :
    s.restartCalls.context j = { s.context j with call := none, window := [], staged := none } := by
  obtain ⟨-, -, -, hcontexts, -⟩ := State.restartTables_wf h
  exact Table.get_mapAll hcontexts Context.restarted rfl j

theorem State.position_restartCalls (p : Nat) : s.restartCalls.position p = { s.position p with context := none } := by
  obtain ⟨hpositions, -⟩ := State.restartTables_wf h
  exact Table.get_mapAll hpositions (fun x => { x with context := none }) rfl p

theorem State.entry_restartCalls (e : Nat) : s.restartCalls.entry e = { s.entry e with context := none } := by
  obtain ⟨-, hentries, -⟩ := State.restartTables_wf h
  exact Table.get_mapAll hentries (fun x => { x with context := none }) rfl e

theorem State.group_restartCalls (g : Nat) : s.restartCalls.group g = { s.group g with inUse := 0 } := by
  obtain ⟨-, -, hgroups, -⟩ := State.restartTables_wf h
  exact Table.get_mapAll hgroups (fun x => { x with inUse := 0 }) rfl g

theorem State.position_restartAll (p : Nat) :
    s.restartCalls.restartAdmissions.position p =
      { s.position p with
        owner := none, pending := none, context := none, attempts := 0, holdOff := none
        switchWaiting := (s.position p).silenced } := by
  obtain ⟨hpositions, -⟩ := State.restartTables_wf h
  have hclosed : Table.wf 480 {} s.restartCalls.positions = true :=
    Table.map_wf (fun x : Position => { x with context := none }) hpositions
  have hget : s.restartCalls.restartAdmissions.position p = (s.restartCalls.position p).restarted :=
    Table.get_mapAll hclosed Position.restarted rfl p
  rw [hget, State.position_restartCalls h]
  rfl

theorem State.entry_restartAll (e : Nat) :
    s.restartCalls.restartAdmissions.entry e =
      { s.entry e with
        state := if (s.entry e).state = .admitted then .absent else (s.entry e).state
        home := none, candidate := none, refresh := none, rechallenge := none, failures := 0, context := none } := by
  obtain ⟨-, hentries, -⟩ := State.restartTables_wf h
  have hclosed : Table.wf 1024 {} s.restartCalls.entries = true :=
    Table.map_wf (fun x : Entry => { x with context := none }) hentries
  have hget : s.restartCalls.restartAdmissions.entry e = (s.restartCalls.entry e).restarted :=
    Table.get_mapAll hclosed Entry.restarted rfl e
  rw [hget, State.entry_restartCalls h]
  rfl

theorem State.highway_restartAll (i : Nat) :
    s.restartCalls.restartAdmissions.highway i = { s.highway i with queue := [] } := by
  obtain ⟨-, -, -, -, hhighways⟩ := State.restartTables_wf h
  exact Table.get_mapAll hhighways (fun x => { x with queue := [] }) rfl i

end

/-! ### RESTART as a command (R170) -/

theorem scopeOfCode_none {scope : Nat} (h1 : scope ≠ 1) (h2 : scope ≠ 2) : scopeOfCode scope = none := by
  unfold scopeOfCode
  split
  · exact absurd rfl h1
  · exact absurd rfl h2
  · rfl

theorem exec_restartCalls {s : State} (h : s.inFrame) (tag : Byte) (scope : Nat) :
    exec (.restartCalls tag scope) s = .next (s.restart tag scope) :=
  State.managementCell_inFrame h (fun s => s.restart tag scope)

theorem exec_restartAll {s : State} (h : s.inFrame) (tag : Byte) :
    exec (.restartAll tag) s = .next (s.restart tag 2) :=
  State.managementCell_inFrame h (fun s => s.restart tag 2)

/-- Settles O49: the answers of a RESTART change the reports only, and each record is read off its rewritten table. -/
theorem restartsClearCallsAndAdmissions : Obligations.RestartsClearCallsAndAdmissions := by
  refine ⟨fun tag s hwf hframe => ⟨fun scope h1 h2 => ?_, ?_⟩, fun tag s hwf hframe => ?_⟩
  · rw [exec_restartCalls hframe, State.restart, scopeOfCode_none h1 h2]
    rfl
  · have hanswers := s.restartCalls.reportRestart_frame tag .calls s.openContexts.length
    have hsame : SameReports s.restartCalls s := ⟨rfl, rfl, rfl⟩
    refine ⟨s.restartCalls.reportRestart tag .calls s.openContexts.length, exec_restartCalls hframe tag 1, ?_⟩
    have hreports := hsame.reportRestart rfl tag .calls s.openContexts.length
    generalize s.restartCalls.reportRestart tag .calls s.openContexts.length = t at hanswers hreports ⊢
    have hpair : t.pairBuffer = pairAfterRestartCalls s.pairBuffer := by rw [hanswers]; rfl
    refine ⟨fun j => ?_, fun p => ?_, fun e => ?_, fun g => ?_, ?_, fun j half a b hheld => ?_,
      fun e half a b hheld => ?_, fun hheld => ?_, hreports, ?_⟩
    · rw [hanswers]; exact State.context_restartCalls hwf j
    · rw [hanswers]; exact State.position_restartCalls hwf p
    · rw [hanswers]; exact State.entry_restartCalls hwf e
    · rw [hanswers]; exact State.group_restartCalls hwf g
    · rw [hanswers]; rfl
    · rw [hpair, hheld]; rfl
    · rw [hpair, hheld]; rfl
    · rw [hpair, hheld]; rfl
    · rw [hanswers]; rfl
  · have hanswers := s.restartCalls.restartAdmissions.reportRestart_frame tag .all s.openContexts.length
    have hsame : SameReports s.restartCalls.restartAdmissions { s with reportQueue := [], reportPause := false } :=
      ⟨rfl, rfl, rfl⟩
    refine ⟨s.restartCalls.restartAdmissions.reportRestart tag .all s.openContexts.length,
      exec_restartAll hframe tag, ?_⟩
    have hreports := hsame.reportRestart rfl tag .all s.openContexts.length
    generalize s.restartCalls.restartAdmissions.reportRestart tag .all s.openContexts.length = t at hanswers hreports ⊢
    refine ⟨fun j => ?_, fun p => ?_, fun e => ?_, fun g => ?_, fun i => ?_, ?_, ?_, ?_, ?_, ?_, ?_, hreports, ?_⟩
    · rw [hanswers]; exact State.context_restartCalls hwf j
    · rw [hanswers]; exact State.position_restartAll hwf p
    · rw [hanswers]; exact State.entry_restartAll hwf e
    · rw [hanswers]; exact State.group_restartCalls hwf g
    · rw [hanswers]; exact State.highway_restartAll hwf i
    all_goals rw [hanswers]; rfl

end Sys2Proof.Machine
end
section
/-! What an operation can do to the Position, Extension, Group and Call Context Tables, said once: a `Move` is one write
of them with what its guard has checked, and the events of a frame are sequences of moves. -/

namespace Sys2Proof.Machine

variable {s t u : State}

/-! ### Moves -/

/-- The position and the entry that a call joins. -/
def Call.ends (c : Call) : Nat × Nat := (c.position, c.entry)

/-- The ends of an OPEN context's call (R114). -/
def Context.ends (c : Context) : Option (Nat × Nat) := c.call.map Call.ends

/-- A FIRST candidate stands only at an entry that is not ADMITTED (R76, R82). -/
def Entry.firstAgrees (e : Entry) : Prop := ∀ c, e.candidate = some c → c.kind = .first → e.state ≠ .admitted

/-- A position's record after an operation that leaves its owner, context and treatment as they were, and that keeps it
silent toward the switch if it was (R36). -/
structure Position.Kept (a b : Position) : Prop where
  owner : b.owner = a.owner
  context : b.context = a.context
  requested : b.requested = a.requested
  silent : a.silent → b.silent

/-- An entry after an operation that leaves its admission, call and group as they were. -/
structure Entry.Kept (a b : Entry) : Prop where
  state : b.state = a.state
  home : b.home = a.home
  context : b.context = a.context
  group : b.group = a.group
  firsts : a.firstAgrees → b.firstAgrees

/-- A group after an operation that neither counts a context nor puts the budget below the count (R66, R67). -/
structure Group.Kept (a b : Group) : Prop where
  inUse : b.inUse = a.inUse
  budget : a.inUse ≤ a.budget → b.inUse ≤ b.budget

/-- The two states hold the same four tables. -/
structure SameTables (s t : State) : Prop where
  positions : t.positions = s.positions
  entries : t.entries = s.entries
  groups : t.groups = s.groups
  contexts : t.contexts = s.contexts

/-- One operation on the four tables. -/
inductive Move (s : State) : State → Prop where
  /-- anything outside the four tables -/
  | elsewhere {t : State} (h : SameTables s t) : Move s t
  | position (p : Nat) {v : Position} (h : (s.position p).Kept v) : Move s (s.setPosition p v)
  | entry (e : Nat) {v : Entry} (h : (s.entry e).Kept v) : Move s (s.setEntry e v)
  | group (g : Nat) {v : Group} (h : (s.group g).Kept v) : Move s (s.setGroup g v)
  /-- a context that stays FREE or in a call with the same ends -/
  | context (j : Nat) {v : Context} (h : v.ends = (s.context j).ends) : Move s (s.setContext j v)
  /-- an entry that is ADMITTED nowhere and does not become so (R57, R59 to R62, R103) -/
  | outside (e : Nat) {v : Entry} (hbefore : (s.entry e).state ≠ .admitted ∨ (s.entry e).home = none)
      (hafter : v.state ≠ .admitted) (hcontext : v.context = (s.entry e).context) : Move s (s.setEntry e v)
  /-- a requested treatment; no loop at a position in a call (R49) -/
  | treat (p : Nat) (treatment : Treatment) (tone : Nat) (h : treatment.isLoop = true → s.openContextAt p = none) :
      Move s (s.setPosition p ((s.position p).treated treatment tone))
  /-- an OPEN CALL that has passed its checks (R117, R118) -/
  | openCall (tag : Byte) {j p e : Nat} (loop : Bool) (key : Key) (hfree : (s.context j).call = none)
      (howner : (s.position p).owner = some e) (hloop : (s.position p).requested.isLoop = false)
      (hidle : s.openContextAt p = none) (hbudget : (s.groupOf e).inUse < (s.groupOf e).budget) :
      Move s (s.openContext tag j p e loop key)
  /-- the close of a call (R120) -/
  | close (j : Nat) (cause : CloseCause) : Move s (s.closeContext j cause)
  /-- the end of an admission (R63, R116) -/
  | endAdmission (e : Nat) (cause : CloseCause) {state : EntryState} (h : state ≠ .admitted) :
      Move s (s.endAdmission e cause state)
  /-- the end of a frame at every position (R34) -/
  | endFrame (cut : Bool) : Move s { s with positions := Table.mapAll {} (Position.endFrame cut) s.positions }
  /-- a RESTART CALLS (R128) -/
  | restartCalls : Move s s.restartCalls
  /-- a RESTART ALL (R170) -/
  | restartAll : Move s s.restartCalls.restartAdmissions
  /-- a hardware reset (R14) -/
  | reset : Move s { State.reset with pending := s.pending, freeCount := s.freeCount }

/-- A sequence of moves. -/
def Moves : State → State → Prop := Relation.ReflTransGen Move

theorem Moves.refl (s : State) : Moves s s := Relation.ReflTransGen.refl

theorem Moves.then (h : Moves s t) (h' : Move t u) : Moves s u := Relation.ReflTransGen.tail h h'

/-- What each move keeps, a sequence of moves keeps. -/
theorem Moves.keeps {P : State → Prop} (hP : ∀ s t, P s → Move s t → P t) (h : Moves s t) (hs : P s) : P t := by
  induction h with
  | refl => exact hs
  | tail _ hmove ih => exact hP _ _ ih hmove

/-! ### Writes of one record -/

theorem Moves.elsewhere (h : Moves s t) (hpositions : u.positions = t.positions := by rfl)
    (hentries : u.entries = t.entries := by rfl) (hgroups : u.groups = t.groups := by rfl)
    (hcontexts : u.contexts = t.contexts := by rfl) : Moves s u :=
  h.then (.elsewhere ⟨hpositions, hentries, hgroups, hcontexts⟩)

/-- A write of a position; that it leaves what the moves read is checked by evaluation. -/
theorem Moves.setPosition (h : Moves s t) (p : Nat) {v : Position}
    (hv : (t.position p).Kept v := by exact ⟨rfl, rfl, rfl, id⟩) : Moves s (t.setPosition p v) :=
  h.then (.position p hv)

/-- A write of an entry, checked in the same way. -/
theorem Moves.setEntry (h : Moves s t) (e : Nat) {v : Entry}
    (hv : (t.entry e).Kept v := by exact ⟨rfl, rfl, rfl, rfl, id⟩) : Moves s (t.setEntry e v) :=
  h.then (.entry e hv)

/-- A write of a context, checked in the same way. -/
theorem Moves.setContext (h : Moves s t) (j : Nat) {v : Context} (hv : v.ends = (t.context j).ends := by rfl) :
    Moves s (t.setContext j v) := h.then (.context j hv)

/-- An entry whose candidate has been removed. -/
theorem Entry.Kept.withoutCandidate (a : Entry) : a.Kept { a with candidate := none } :=
  ⟨rfl, rfl, rfl, rfl, fun _ => nofun⟩

/-! ### Queues, reports and candidates -/

theorem Moves.joinCell (h : Moves s t) (level : Nat) (cell : OutCell) : Moves s (t.joinCell level cell) := by
  rw [State.joinCell_frame]
  exact h.elsewhere

theorem Moves.report (h : Moves s t) (r : Report) : Moves s (t.report r) := by
  rw [State.report_frame]
  exact h.elsewhere

theorem Moves.accept (h : Moves s t) (tag : Byte) (values : Accepted) : Moves s (t.accept tag values) := h.joinCell _ _

theorem Moves.refuse (h : Moves s t) (tag : Byte) (kind : Nat) (reason : Reason) : Moves s (t.refuse tag kind reason) :=
  h.joinCell _ _

theorem Moves.replyTo (h : Moves s t) (p : Nat) (r : LineReply) : Moves s (t.replyTo p r) := h.elsewhere

theorem Moves.backoff (h : Moves s t) (p : Nat) : Moves s (t.backoff p) := h.setPosition p

theorem Moves.waitWithBackoff (h : Moves s t) (p : Nat) : Moves s (t.waitWithBackoff p) := (h.backoff p).replyTo _ _

theorem Moves.rejectWithBackoff (h : Moves s t) (p : Nat) (reason : RejectReason) :
    Moves s (t.rejectWithBackoff p reason) := (h.backoff p).replyTo _ _

theorem Moves.removeCandidate (h : Moves s t) (e p : Nat) : Moves s (t.removeCandidate e p) :=
  (h.setEntry e (.withoutCandidate _)).setPosition p

theorem Moves.dropCandidate (h : Moves s t) (e : Nat) : Moves s (t.dropCandidate e) := by
  unfold State.dropCandidate
  cases (t.entry e).candidate with
  | none => exact h
  | some c =>
    have hremoved := h.removeCandidate e c.position
    dsimp only
    cases c.stage with
    | awaiting _ => exact hremoved
    | queued => exact hremoved.elsewhere

theorem Moves.createCandidate (h : Moves s t) (e p : Nat) {kind : CandidateKind}
    (hkind : kind = .first → (t.entry e).state ≠ .admitted) : Moves s (t.createCandidate e p kind) := by
  refine ((h.setEntry e ?_).setPosition p).replyTo _ _
  cases kind with
  | first | move =>
    refine ⟨rfl, rfl, rfl, rfl, fun _ c hc hfirst => hkind ?_⟩
    obtain rfl := Option.some.inj hc
    exact hfirst
  | renew =>
    refine ⟨rfl, rfl, rfl, rfl, fun _ c hc hfirst => hkind ?_⟩
    obtain rfl := Option.some.inj hc
    exact hfirst

theorem Moves.closeContext (h : Moves s t) (j : Nat) (cause : CloseCause) : Moves s (t.closeContext j cause) :=
  h.then (.close j cause)

theorem Moves.endAdmission (h : Moves s t) (e : Nat) (cause : CloseCause) {state : EntryState}
    (hstate : state ≠ .admitted) : Moves s (t.endAdmission e cause state) := h.then (.endAdmission e cause hstate)

/-! ### The transmit side (R130 to R134) -/

/-- The context is OPEN, and its call has the ends of `call`; a side that commits a staged key writes the rest of the
call anew (R133, R150). -/
structure State.Joins (s : State) (j : Nat) (call : Call) : Prop where
  ends : (s.context j).ends = some call.ends

theorem State.Joins.of_call {j : Nat} {call : Call} (h : (s.context j).call = some call) : s.Joins j call :=
  ⟨by rw [Context.ends, h]; rfl⟩

theorem State.Joins.setContext {j : Nat} {call : Call} (h : s.Joins j call) {v : Context}
    (hv : v.ends = (s.context j).ends := by rfl) : (s.setContext j v).Joins j call :=
  ⟨by rw [State.context_setContext_self, hv, h.ends]⟩

theorem State.Joins.report {j : Nat} {call : Call} (h : s.Joins j call) (r : Report) : (s.report r).Joins j call :=
  ⟨by rw [State.context_report]; exact h.ends⟩

theorem Moves.reportStagedTaken (h : Moves s t) (j p : Nat) (g : Generation) (otherTaken : Bool) :
    Moves s (t.reportStagedTaken j p g otherTaken) := by
  unfold State.reportStagedTaken
  split
  · exact h.report _
  · exact h

theorem Moves.txSkip (h : Moves s t) (j : Nat) (call : Call) (reason : SkipReason) :
    Moves s (t.txSkip j call reason) := by
  unfold State.txSkip
  dsimp only
  split
  · exact h
  · exact (h.setContext j).report _

theorem Moves.rekeyDecision (h : Moves s t) {j : Nat} {call : Call} (hcall : t.Joins j call) :
    Moves s (t.rekeyDecision j call) := by
  unfold State.rekeyDecision
  cases (t.context j).staged with
  | none => exact h.txSkip _ _ _
  | some k =>
    dsimp only
    split
    · exact h.txSkip _ _ _
    · exact ((h.setContext j (by exact hcall.ends.symm)).report _).reportStagedTaken _ _ _ _

theorem Moves.txAdvance (h : Moves s t) (j : Nat) : Moves s (t.txAdvance j) := by
  unfold State.txAdvance
  cases hcall : (t.context j).call with
  | none => exact h
  | some call =>
    have hadvanced : Moves s (t.setContext j { t.context j with txFrame := (t.context j).txFrame + 1 }) :=
      h.setContext j
    unfold State.txStep
    dsimp only
    split
    · exact hadvanced.rekeyDecision (State.Joins.setContext (.of_call hcall))
    · exact hadvanced

/-! ### The receive side (R142 to R150) -/

theorem Moves.enterKeyWait (h : Moves s t) (j : Nat) (call : Call) (before : SyncState) (cause : KeyMissCause)
    (g : Generation) : Moves s (t.enterKeyWait j call before cause g) := by
  unfold State.enterKeyWait
  dsimp only
  split
  · exact h.setContext j
  · exact (h.setContext j).report _

theorem Moves.generationCheck (h : Moves s t) {j : Nat} {call : Call} (hcall : t.Joins j call)
    (before : SyncState) (g : Generation) : Moves s (t.generationCheck j call before g) := by
  unfold State.generationCheck
  dsimp only
  split
  · exact h.setContext j
  · split
    · split
      · exact ((h.setContext j (by exact hcall.ends.symm)).report _).reportStagedTaken _ _ _ _
      · exact h.enterKeyWait _ _ _ _ _
    · exact h.enterKeyWait _ _ _ _ _

theorem Moves.recognise (h : Moves s t) {j : Nat} {call : Call} (hcall : t.Joins j call) (b : FoundBurst) :
    Moves s (t.recognise j call b) := by
  have hcheck (c : Context) (hc : c.ends = (t.context j).ends) :
      Moves s ((t.setContext j c).generationCheck j call (t.context j).sync b.generation) :=
    (h.setContext j hc).generationCheck (hcall.setContext hc) _ _
  have hreport (c : Context) (r : Report) (hc : c.ends = (t.context j).ends) :
      Moves s (((t.setContext j c).report r).generationCheck j call (t.context j).sync b.generation) :=
    ((h.setContext j hc).report r).generationCheck ((hcall.setContext hc).report r) _ _
  unfold State.recognise
  dsimp only
  split
  · exact hreport _ _ rfl
  · exact hcheck _ rfl
  · exact hcheck _ rfl
  · split
    · exact hcheck _ rfl
    · exact hreport _ _ rfl

theorem Moves.countMiss (h : Moves s t) (j : Nat) (call : Call) : Moves s (t.countMiss j call) := by
  unfold State.countMiss
  dsimp only
  split
  · exact h.setContext j
  · exact (h.setContext j).report _

theorem Context.ends_numbered (c : Context) : c.numbered.ends = c.ends := by
  unfold Context.numbered
  split <;> rfl

theorem Moves.receive (h : Moves s t) {j : Nat} {call : Call} (hcall : t.Joins j call) (code : Byte) :
    Moves s (t.receive j call code) := by
  have hnumbered := Context.ends_numbered (t.context j)
  have hjoined : Moves s (t.setContext j
      { (t.context j).numbered with window := windowAfter (t.context j).numbered.window code }) :=
    h.setContext j hnumbered
  unfold State.receive State.decideArrival
  dsimp only
  split
  · exact hjoined.recognise (hcall.setContext hnumbered) _
  · split
    · exact hjoined.countMiss j call
    · exact hjoined

/-! ### Arrivals (R34, R36, R39 to R46) -/

/-- A position without an owner has a treatment that gives the switch 255, or it is in SWITCH LOOP (R36, R38). -/
theorem State.effective_of_unowned {p : Nat} (h : (s.position p).owner = none) :
    s.effective p = .lineLoop ∨ s.effective p = .switchLoop ∨ s.effective p = .pending ∨ s.effective p = .mute := by
  unfold State.effective State.unloopedTreatment
  rw [h]
  cases (s.position p).requested <;> cases (s.position p).pending <;> simp

/-- A code for the switch: 255 at a position that has neither an owner nor SWITCH LOOP (R36). -/
theorem Moves.toSwitch (h : Moves s t) {p : Nat} {code : Byte}
    (hquiet : (t.position p).owner = none → (t.position p).requested ≠ .switchLoop → code = 255) :
    Moves s (t.toSwitch p code) := h.setPosition p ⟨rfl, rfl, rfl, fun _ => hquiet⟩

theorem Moves.toLine (h : Moves s t) (p : Nat) (code : Byte) : Moves s (t.toLine p code) :=
  h.setPosition p

theorem Moves.countUpClamp (h : Moves s t) (p : Nat) (code : Byte) : Moves s (t.countUpClamp p code) :=
  h.setPosition p

theorem Moves.countDownClamp (h : Moves s t) (p : Nat) (clamped : Bool) : Moves s (t.countDownClamp p clamped) :=
  h.setPosition p

theorem State.owner_countUpClamp (s : State) (p : Nat) (code : Byte) :
    ((s.countUpClamp p code).position p).owner = (s.position p).owner := by
  rw [State.countUpClamp, State.position_setPosition_self]

theorem Moves.upstream (h : Moves s t) (p : Nat) (code : Byte) : Moves s (t.upstream p code) := by
  have hunowned := State.effective_of_unowned (s := t) (p := p)
  unfold State.upstream
  cases heff : t.effective p with
  | lineLoop => exact (h.toLine p code).toSwitch fun _ _ => rfl
  | switchLoop => exact h.toLine p 255
  | pending | mute => exact h.toSwitch fun _ _ => rfl
  | clear | tone =>
    have howned : (t.position p).owner ≠ none := fun h0 => by simp [heff] at hunowned; exact hunowned h0
    exact (h.countUpClamp p code).toSwitch fun h0 _ => absurd ((t.owner_countUpClamp p code).symm.trans h0) howned
  | scrambled shape j call =>
    have howned : (t.position p).owner ≠ none := fun h0 => by simp [heff] at hunowned; exact hunowned h0
    cases shape with
    | mute => exact h.toSwitch fun h0 _ => absurd h0 howned
    | clear | tone =>
      exact (h.countUpClamp p code).toSwitch fun h0 _ => absurd ((t.owner_countUpClamp p code).symm.trans h0) howned

theorem State.requested_of_switchLoop {p : Nat} (h : s.effective p = .switchLoop) :
    (s.position p).requested = .switchLoop := by
  unfold State.effective State.unloopedTreatment State.ownedTreatment at h
  cases hr : (s.position p).requested with
  | switchLoop => rfl
  | lineLoop => simp [hr] at h
  | clear | mute | tone =>
    rw [hr] at h
    dsimp only at h
    split at h
    · split at h <;> nomatch h
    · nomatch h
    · nomatch h

theorem Moves.downstream (h : Moves s t) (p : Nat) (code looped : Byte) : Moves s (t.downstream p code looped) := by
  unfold State.downstream
  cases heff : t.effective p with
  | lineLoop => exact h
  | switchLoop => exact h.toSwitch fun _ hr => absurd (State.requested_of_switchLoop heff) hr
  | pending | mute | tone => exact h.toLine _ _
  | clear => exact (h.countDownClamp _ _).toLine _ _
  | scrambled shape j call =>
    have hcall := State.Joins.of_call (State.call_of_effective heff)
    exact ((h.countDownClamp p _).setPosition p).receive ⟨hcall.ends⟩ _

/-- A slot that is driven leaves 255 behind (R34). -/
theorem Position.Kept.driveSwitch (pos : Position) : pos.Kept pos.driveSwitch := by
  unfold Position.driveSwitch
  split
  · exact ⟨rfl, rfl, rfl, id⟩
  · exact ⟨rfl, rfl, rfl, fun _ _ _ => rfl⟩

theorem Position.Kept.driveLine (pos : Position) : pos.Kept pos.driveLine := by
  unfold Position.driveLine
  split
  · exact ⟨rfl, rfl, rfl, id⟩
  · exact ⟨rfl, rfl, rfl, id⟩

theorem Position.Kept.trans {a b c : Position} (h : a.Kept b) (h' : b.Kept c) : a.Kept c :=
  ⟨h'.owner.trans h.owner, h'.context.trans h.context, h'.requested.trans h.requested, h'.silent ∘ h.silent⟩

/-! ### The events of a boundary (assumption 2) -/

theorem Moves.supplyUp (h : Moves s t) (p : Nat) : Moves s (t.supplyUp p) := by
  unfold State.supplyUp
  split
  · exact Moves.upstream h.elsewhere p 255
  · exact h

theorem Moves.supplyDown (h : Moves s t) (p : Nat) : Moves s (t.supplyDown p) := by
  unfold State.supplyDown
  split
  · exact Moves.downstream h.elsewhere p 255 255
  · exact h

theorem Moves.takeTx (h : Moves s t) (j : Nat) : Moves s (t.takeTx j) := by
  unfold State.takeTx
  split
  · dsimp only
    split
    · exact h.elsewhere
    · exact Moves.txAdvance (.supplyUp h.elsewhere _) j
  · exact h

theorem Moves.takePlayout (h : Moves s t) (c : Nat) : Moves s (t.takePlayout c) := by
  unfold State.takePlayout State.playoutStep
  split
  · dsimp only
    split
    · exact h.elsewhere
    · exact h.elsewhere
    · split
      · exact Moves.report h.elsewhere _
      · exact h.elsewhere
  · exact h

theorem Moves.takeLineCell (h : Moves s t) (i : Nat) : Moves s (t.takeLineCell i) := by
  unfold State.takeLineCell
  split
  · exact h.elsewhere
  · exact h

theorem Moves.sendReport (h : Moves s t) (cut : Bool) : Moves s (t.sendReport cut) := by
  unfold State.sendReport
  split
  · exact h
  · split
    · exact h.elsewhere
    · exact h.elsewhere

theorem Moves.takeReport (h : Moves s t) : Moves s t.takeReport := by
  unfold State.takeReport
  split
  · exact Moves.sendReport h.elsewhere _
  · exact h

theorem Moves.takeSecond (h : Moves s t) : Moves s t.takeSecond := by
  unfold State.takeSecond
  split
  · exact h.elsewhere
  · exact h

theorem Moves.takeVerifications (h : Moves s t) : Moves s t.takeVerifications := by
  unfold State.takeVerifications
  split
  · exact h.elsewhere
  · exact h

/-! ### The deadlines (R77, R86, R87, R108, R110) -/

theorem Moves.takeHoldOff (h : Moves s t) (p : Nat) : Moves s (t.takeHoldOff p) := by
  unfold State.takeHoldOff
  split
  · exact h.setPosition p
  · exact h

theorem Moves.takeAnswerDeadline (h : Moves s t) (e : Nat) : Moves s (t.takeAnswerDeadline e) := by
  unfold State.takeAnswerDeadline State.answerTimeout
  split
  · exact h
  · next c _ =>
    have hremoved := h.removeCandidate e c.position
    split
    · dsimp only
      split
      · exact hremoved.replyTo _ _
      · exact hremoved.replyTo _ _
      · exact ((hremoved.endAdmission _ _ (by decide)).replyTo _ _).report _
    · exact h

theorem Moves.takeRefresh (h : Moves s t) (e : Nat) : Moves s (t.takeRefresh e) := by
  have hended : Moves s ((t.dropCandidate e).endAdmission e .lapsed .absent) :=
    (h.dropCandidate e).endAdmission e _ (by decide)
  unfold State.takeRefresh State.lapse
  split
  · cases (t.entry e).home with
    | none => exact hended
    | some p => exact (hended.replyTo _ _).report _
  · exact h

theorem Moves.takeRechallenge (h : Moves s t) (e : Nat) : Moves s (t.takeRechallenge e) := by
  unfold State.takeRechallenge State.rechallengeAt
  split
  · split
    · exact h
    · split
      · exact h.setEntry e
      · exact (h.setEntry e).createCandidate (kind := .renew) e _ nofun
  · exact h

/-! ### Carried arrivals and driven slots (R1, R34) -/

theorem Moves.supplyBoth (h : Moves s t) (p : Nat) : Moves s (t.supplyBoth p) := (h.supplyUp p).supplyDown p

theorem Moves.driveBoth (h : Moves s t) (p : Nat) : Moves s (t.driveBoth p) :=
  h.setPosition p ((Position.Kept.driveSwitch _).trans (.driveLine _))

theorem Moves.advanceTxAt (h : Moves s t) (p : Nat) : Moves s (t.advanceTxAt p) := by
  rcases t.advanceTxAt_cases p with heq | ⟨_, j, _, _, heq⟩
  · rw [heq]; exact h
  · rw [heq]; exact h.takeTx j

/-- An arrival is marked as processed (R35). -/
theorem Moves.markUp (h : Moves s t) (p : Nat) : Moves s (t.setPosition p { t.position p with upTaken := true }) :=
  h.setPosition p

theorem Moves.markDown (h : Moves s t) (p : Nat) : Moves s (t.setPosition p { t.position p with downTaken := true }) :=
  h.setPosition p

theorem Moves.upstreamCarried (h : Moves s t) (p : Nat) (code : Byte) : Moves s (t.upstreamCarried p code) :=
  ((((h.supplyBoth p).advanceTxAt p).driveBoth p).upstream p code).markUp p

theorem Moves.downstreamCarried (h : Moves s t) (p : Nat) (code : Byte) : Moves s (t.downstreamCarried p code) := by
  have hbefore : Moves s (t.supplyBoth p).beforeDownstream :=
    (State.forEach_keeps (P := Moves s) (fun _ c hu => hu.takePlayout c) _ (h.supplyBoth p)).takeReport
  exact ((hbefore.driveBoth p).downstream p code _).markDown p

theorem Moves.driveSlot (h : Moves s t) (p : Nat) (side : Side) : Moves s (t.driveSlot p side) := by
  cases side with
  | switch => exact (h.supplyBoth p).setPosition p (.driveSwitch _)
  | line => exact (h.supplyBoth p).setPosition p (.driveLine _)

end Sys2Proof.Machine
end

section
/-! Every command as a `Course` of moves and completions of verifications. A law of the four tables holds along every
run once each move and each completion keeps it. -/

namespace Sys2Proof.Machine

variable {s t u : State}

/-! ### Courses -/

/-- What a command does to the tables: moves, and completions of verifications (R96). -/
inductive Course (s : State) : State → Prop where
  | refl : Course s s
  | moves {t u : State} (h : Course s t) (h' : Moves t u) : Course s u
  | complete {t : State} (h : Course s t) (f : FlightItem) : Course s (t.completeItem f)

/-- What each move and each completion keeps, a command keeps. -/
theorem Course.keeps {P : State → Prop} (hmove : ∀ s t, P s → Move s t → P t)
    (hcomplete : ∀ s f, P s → P (s.completeItem f)) (h : Course s t) (hs : P s) : P t := by
  induction h with
  | refl => exact hs
  | moves _ h' ih => exact h'.keeps hmove ih
  | complete _ f ih => exact hcomplete _ f ih

theorem Course.trans (h : Course s t) (h' : Course t u) : Course s u := by
  induction h' with
  | refl => exact h
  | moves _ h' ih => exact ih.moves h'
  | complete _ f ih => exact ih.complete f

theorem Course.completeItems (n : Nat) (h : Course s t) : Course s (State.completeItems n t) := by
  induction n generalizing t with
  | zero => exact h
  | succ n ih =>
    unfold State.completeItems
    split
    · exact h
    · exact ih ((h.moves (.elsewhere (.refl t))).complete _)

/-- The completions of a boundary (R96, R101). -/
theorem Course.completions (h : Course s t) : Course s t.complete := by
  unfold State.complete
  split
  · exact h
  · exact (h.moves (Moves.refl t).takeSecond).completeItems _

/-- All that a boundary brings about. -/
theorem Course.finishBoundary (s : State) : Course s s.finishBoundary :=
  State.finishBoundary_keeps (P := Course s) (fun v p h => h.moves ((Moves.refl v).supplyUp p))
    (fun v p h => h.moves ((Moves.refl v).supplyDown p)) (fun v h => h.moves (Moves.refl v).takeSecond)
    (fun _ h => h.completions) (fun v h => h.moves (Moves.refl v).takeVerifications)
    (fun v p h => h.moves ((Moves.refl v).takeHoldOff p)) (fun v e h => h.moves ((Moves.refl v).takeAnswerDeadline e))
    (fun v e h => h.moves ((Moves.refl v).takeRefresh e)) (fun v e h => h.moves ((Moves.refl v).takeRechallenge e))
    (fun v j h => h.moves ((Moves.refl v).takeTx j)) (fun v c h => h.moves ((Moves.refl v).takePlayout c))
    (fun v i h => h.moves ((Moves.refl v).takeLineCell i)) (fun v h => h.moves (Moves.refl v).takeReport) .refl

/-! ### Line cells (chapter 5) -/

/-- An entry that is ADMITTED gets no FIRST candidate (R82). -/
theorem State.candidateKind_first {e p : Nat} (h : s.candidateKind e p = .first) : (s.entry e).state ≠ .admitted := by
  intro hstate
  unfold State.candidateKind at h
  rw [hstate] at h
  dsimp only at h
  split at h <;> nomatch h

theorem Moves.signOnEntry (h : Moves s t) (p e : Nat) : Moves s (t.signOnEntry p e) := by
  unfold State.signOnEntry
  split
  · exact h.rejectWithBackoff p _
  · split
    · exact h.rejectWithBackoff p _
    · split
      · exact h.rejectWithBackoff p _
      · exact h.createCandidate e p State.candidateKind_first

theorem Moves.signOnAt (h : Moves s t) (p identity : Nat) : Moves s (t.signOnAt p identity) := by
  unfold State.signOnAt State.signOnFree
  split
  · exact h.replyTo _ _
  · split
    · exact h.waitWithBackoff p
    · split
      · exact h.rejectWithBackoff p _
      · split
        · exact (h.rejectWithBackoff p _).report _
        · exact h.signOnEntry p _

/-- A candidate that becomes QUEUED keeps its kind (R84). -/
theorem Entry.Kept.queued {e : Entry} {c : Candidate} (h : e.candidate = some c) :
    e.Kept { e with candidate := some { c with stage := .queued } } := by
  refine ⟨rfl, rfl, rfl, rfl, fun hfirsts c' hc' hkind => ?_⟩
  obtain rfl := Option.some.inj hc'
  exact hfirsts c h hkind

theorem Moves.appendItem (h : Moves s t) {e : Nat} {c : Candidate} (hc : (t.entry e).candidate = some c) (p : Nat)
    (response : Response) : Moves s (t.appendItem e c p response) :=
  Moves.elsewhere (h.setEntry e (.queued hc))

theorem Moves.answerAt (h : Moves s t) (p : Nat) (response : Response) : Moves s (t.answerAt p response) := by
  unfold State.answerAt State.answerFor
  split
  · exact h.replyTo _ _
  · split
    · exact h
    · next c hc =>
      split
      · exact h
      · split
        · exact h.waitWithBackoff p
        · exact h.appendItem hc p response

theorem Moves.keepaliveAt (h : Moves s t) (p : Nat) : Moves s (t.keepaliveAt p) := by
  unfold State.keepaliveAt State.keepaliveOf
  split
  · exact h.replyTo _ _
  · next e _ =>
    have hreloaded : Moves s (t.reloadRefresh e) := h.setEntry e
    split
    · exact hreloaded
    · split
      · exact hreloaded
      · exact hreloaded
      · split
        · exact h.replyTo _ _
        · exact h

theorem Moves.signOffAt (h : Moves s t) (p : Nat) : Moves s (t.signOffAt p) := by
  have howner : Moves s
      (match (t.position p).owner with
        | none => t
        | some e => t.signOffOwner p e) := by
    split
    · exact h
    · exact ((h.dropCandidate _).endAdmission _ _ (by decide)).report _
  unfold State.signOffAt
  dsimp only
  split
  · exact howner.replyTo _ _
  · exact (howner.dropCandidate _).replyTo _ _

/-! ### Entries, groups and keys (chapter 4) -/

/-- A write of an entry that is ADMITTED nowhere and does not become so. -/
theorem Moves.outside (h : Moves s t) {e : Nat} {v : Entry}
    (hbefore : (t.entry e).state ≠ .admitted ∨ (t.entry e).home = none) (hafter : v.state ≠ .admitted)
    (hcontext : v.context = (t.entry e).context := by rfl) : Moves s (t.setEntry e v) :=
  h.then (.outside e hbefore hafter hcontext)

theorem State.entry_accept (s : State) (tag : Byte) (values : Accepted) (e : Nat) :
    (s.accept tag values).entry e = s.entry e := by
  rw [State.accept, State.joinCell_frame]; rfl

theorem State.position_accept (s : State) (tag : Byte) (values : Accepted) (p : Nat) :
    (s.accept tag values).position p = s.position p := by
  rw [State.accept, State.joinCell_frame]; rfl

theorem State.group_accept (s : State) (tag : Byte) (values : Accepted) (g : Nat) :
    (s.accept tag values).group g = s.group g := by
  rw [State.accept, State.joinCell_frame]; rfl

/-- A load leaves an entry that is not ADMITTED as such (R57). -/
theorem Entry.load_state {e : Entry} (h : e.state ≠ .admitted) (group identity : Nat) :
    (e.load group identity).state ≠ .admitted := by
  unfold Entry.load
  dsimp only
  split
  · decide
  · exact h

theorem Moves.loadExtension (h : Moves s t) (tag : Byte) (e group identity : Nat) :
    Moves s (t.loadExtension tag e group identity) := by
  unfold State.loadExtension
  split
  · exact h.refuse _ _ _
  · split
    · exact h.refuse _ _ _
    · split
      · exact h.refuse _ _ _
      · split
        · exact h.refuse _ _ _
        · next hfree =>
          have hstate : (t.entry e).state ≠ .admitted := fun hs => hfree (.inl hs)
          rw [← t.entry_accept tag (.entryCommand .loadExtension e)] at hstate ⊢
          exact (h.accept _ _).outside (.inl hstate) (Entry.load_state hstate _ _)

theorem CandidateDropped.state_eq {e : Nat} (h : CandidateDropped s t e) : (t.entry e).state = (s.entry e).state := by
  rw [h.1]

theorem Moves.removeEntry (h : Moves s t) (e : Nat) (cause : CloseCause) {state : EntryState}
    (hstate : state ≠ .admitted) : Moves s (t.removeEntry e cause state) := by
  have hdropped := (t.dropCandidate_spec e).state_eq
  unfold State.removeEntry State.forceOff
  cases hbefore : (t.entry e).state with
  | admitted =>
    have hended := (h.dropCandidate e).endAdmission e cause hstate
    dsimp only
    cases (t.entry e).home with
    | none => exact hended
    | some p => exact hended.replyTo _ _
  | absent | barred | unloaded =>
    exact (h.dropCandidate e).outside (.inl (by rw [hdropped, hbefore]; decide)) hstate

theorem Moves.unloadExtension (h : Moves s t) (tag : Byte) (e : Nat) : Moves s (t.unloadExtension tag e) := by
  unfold State.unloadExtension
  split
  · exact h.refuse _ _ _
  · split
    · exact h.refuse _ _ _
    · exact ((h.accept _ _).removeEntry e _ (by decide)).setEntry e

theorem Moves.forceSignOff (h : Moves s t) (tag : Byte) (e : Nat) : Moves s (t.forceSignOff tag e) := by
  unfold State.forceSignOff
  split
  · exact h.refuse _ _ _
  · split
    · exact h.refuse _ _ _
    · split
      · exact h.refuse _ _ _
      · exact (h.accept _ _).removeEntry e _ (by decide)

theorem Moves.barEntry (h : Moves s t) (tag : Byte) (e : Nat) : Moves s (t.barEntry tag e) := by
  unfold State.barEntry
  split
  · exact h.refuse _ _ _
  · split
    · exact h.refuse _ _ _
    · exact (h.accept _ _).removeEntry e _ (by decide)

theorem Moves.unbarEntry (h : Moves s t) (tag : Byte) (e : Nat) : Moves s (t.unbarEntry tag e) := by
  unfold State.unbarEntry
  split
  · exact h.refuse _ _ _
  · split
    · exact h.refuse _ _ _
    · next hbarred =>
      rw [← t.entry_accept tag (.entryCommand .unbar e)] at hbarred ⊢
      refine (h.accept _ _).outside (.inl ?_) nofun
      rw [not_ne_iff.1 hbarred]; decide

theorem Moves.setGroup (h : Moves s t) (g : Nat) {v : Group} (hv : (t.group g).Kept v) : Moves s (t.setGroup g v) :=
  h.then (.group g hv)

theorem Moves.setGroupLimits (h : Moves s t) (tag : Byte) (g budget limit : Nat) :
    Moves s (t.setGroupLimits tag g budget limit) := by
  unfold State.setGroupLimits
  split
  · exact h.refuse _ _ _
  · refine (h.accept _ _).setGroup g ?_
    rw [State.group_accept]
    exact ⟨rfl, fun _ => le_max_left _ _⟩

theorem Moves.setGroupTimes (h : Moves s t) (tag : Byte) (g refresh rechallenge : Nat) :
    Moves s (t.setGroupTimes tag g refresh rechallenge) := by
  unfold State.setGroupTimes
  split
  · exact h.refuse _ _ _
  · refine (h.accept _ _).setGroup g ?_
    rw [State.group_accept]
    exact ⟨rfl, id⟩

theorem Moves.writePair (h : Moves s t) (pair : Option PairHalf) : Moves s { t with pairBuffer := pair } := h.elsewhere

theorem Moves.reportBroken (h : Moves s t) (broken : Option PairHalf) : Moves s (t.reportBroken broken) := by
  unfold State.reportBroken
  split
  · exact h
  · exact h.report _

theorem Moves.secretHalf (h : Moves s t) (tag : Byte) (half : Half) (e : Nat) (first second : KeyWord) :
    Moves s (t.secretHalf tag half e first second) := by
  unfold State.secretHalf
  split
  · exact h.refuse _ _ _
  · split
    · exact h.refuse _ _ _
    · exact (((h.setEntry e).writePair _).accept _ _).reportBroken _

theorem Moves.stagedHalf (h : Moves s t) (tag : Byte) (half : Half) (j : Nat) (first second : KeyWord) :
    Moves s (t.stagedHalf tag half j first second) := by
  unfold State.stagedHalf
  split
  · exact h.refuse _ _ _
  · split
    · exact h.refuse _ _ _
    · exact (((h.setContext j).writePair _).accept _ _).reportBroken _

/-! ### Calls (R117, R118, R121) -/

theorem Moves.openCallAt (h : Moves s t) (tag : Byte) {j : Nat} (hfree : (t.context j).call = none) (p : Nat)
    (loop : Bool) : Moves s (t.openCallAt tag j p loop) := by
  unfold State.openCallAt
  split
  · exact h.refuse _ _ _
  · next e howner =>
    split
    · exact h.refuse _ _ _
    · next hloop =>
      split
      · exact h.refuse _ _ _
      · next hidle =>
        split
        · exact h.refuse _ _ _
        · split
          · exact h.refuse _ _ _
          · next hbudget =>
            exact h.then (.openCall tag loop _ hfree howner (by simpa using hloop) (by simpa using hidle)
              (Nat.lt_of_not_le hbudget))

theorem Moves.openCall (h : Moves s t) (tag : Byte) (j p loopFlag : Nat) : Moves s (t.openCall tag j p loopFlag) := by
  unfold State.openCall
  split
  · exact h.refuse _ _ _
  · split
    · exact h.refuse _ _ _
    · next hfree =>
      split
      · exact h.refuse _ _ _
      · split
        · exact h.refuse _ _ _
        · exact h.openCallAt tag (by simpa [Context.isOpen] using hfree) p _

theorem Moves.closeCall (h : Moves s t) (tag : Byte) (j : Nat) : Moves s (t.closeCall tag j) := by
  unfold State.closeCall
  split
  · exact h.refuse _ _ _
  · exact (h.accept _ _).closeContext _ _

/-! ### Paths and playout (R49, R50, R156 to R159) -/

theorem State.openContextAt_accept (s : State) (tag : Byte) (values : Accepted) (p : Nat) :
    (s.accept tag values).openContextAt p = s.openContextAt p := by
  rw [State.accept, State.joinCell_frame]; rfl

theorem Moves.setPositionTreatment (h : Moves s t) (tag : Byte) (p treatment toneChannel : Nat) :
    Moves s (t.setPositionTreatment tag p treatment toneChannel) := by
  unfold State.setPositionTreatment
  split
  · exact h.refuse _ _ _
  · split
    · exact h.refuse _ _ _
    · split
      · exact h.refuse _ _ _
      · split
        · exact h.refuse _ _ _
        · next hcall =>
          rw [← t.position_accept tag (.setPositionTreatment p)]
          refine (h.accept _ _).then (.treat p _ toneChannel fun hloop => ?_)
          rw [State.openContextAt_accept]
          simpa [hloop] using hcall

theorem Position.Kept.gained (pos : Position) (direction : Direction) (gain : Nat) :
    pos.Kept (pos.gained direction gain) := by
  cases direction with
  | up | down | both => exact ⟨rfl, rfl, rfl, id⟩

theorem Moves.setPositionGain (h : Moves s t) (tag : Byte) (p direction gain : Nat) :
    Moves s (t.setPositionGain tag p direction gain) := by
  unfold State.setPositionGain
  split
  · exact h.refuse _ _ _
  · split
    · exact h.refuse _ _ _
    · rw [← t.position_accept tag (.setPositionGain p _ (min 512 gain))]
      exact (h.accept _ _).setPosition p (.gained _ _ _)

theorem Moves.loadPattern (h : Moves s t) (tag : Byte) (a : Nat) (c0 c1 c2 c3 : Byte) :
    Moves s (t.loadPattern tag a c0 c1 c2 c3) := by
  unfold State.loadPattern
  split
  · exact h.refuse _ _ _
  · exact Moves.accept h.elsewhere _ _

theorem Moves.setPlayout (h : Moves s t) (tag : Byte) (c repeats mode start length : Nat) :
    Moves s (t.setPlayout tag c repeats mode start length) := by
  unfold State.setPlayout
  split
  · exact h.refuse _ _ _
  · split
    · exact h.refuse _ _ _
    · split
      · exact h.refuse _ _ _
      · exact Moves.accept h.elsewhere _ _

theorem Moves.stopPlayout (h : Moves s t) (tag : Byte) (c : Nat) : Moves s (t.stopPlayout tag c) := by
  unfold State.stopPlayout
  split
  · exact h.refuse _ _ _
  · exact Moves.accept h.elsewhere _ _

/-! ### SET DEVICE, READ and RESTART (R168 to R170) -/

theorem Moves.setDevice (h : Moves s t) (tag : Byte) (n value : Nat) : Moves s (t.setDevice tag n value) := by
  unfold State.setDevice
  split
  · exact h.refuse _ _ _
  · split
    · exact h.refuse _ _ _
    · split
      · exact h.refuse _ _ _
      · exact Moves.accept h.elsewhere _ _

theorem Moves.readPage (h : Moves s t) (tag : Byte) (kind index part : Nat) :
    Moves s (t.readPage tag kind index part) := by
  unfold State.readPage
  split
  · exact h.refuse _ _ _
  · split
    · exact h.refuse _ _ _
    · split
      · exact h.refuse _ _ _
      · exact Moves.joinCell h.elsewhere _ _

theorem Moves.restart (h : Moves s t) (tag : Byte) (scope : Nat) : Moves s (t.restart tag scope) := by
  unfold State.restart
  split
  · exact h.refuse _ _ _
  · exact ((h.then .restartCalls).report _).accept _ _
  · exact ((h.then .restartAll).report _).accept _ _

/-! ### Frame pulses (R2, R14, R27) -/

theorem Moves.crossBoundary (h : Moves s t) (cut : Bool) : Moves s (t.crossBoundary cut) :=
  Moves.elsewhere (h.then (.endFrame cut))

theorem Course.framePulse (s : State) (early : Bool) : Course s (s.framePulse early) := by
  have hboundary : Course s (s.finishBoundary.crossBoundary (s.cutsShort early)) :=
    (Course.finishBoundary s).moves ((Moves.refl _).crossBoundary _)
  unfold State.framePulse
  split
  · have hsent : Moves s
        (({ s with pulse := .running } : State).forEach (List.range 4) fun v i => v.sendLine i false) :=
      State.forEach_keeps (P := Moves s) (fun _ _ hv => hv.elsewhere) (List.range 4) (Moves.elsewhere (.refl s))
    exact Course.refl.moves (hsent.sendReport false)
  · exact hboundary
  · exact hboundary

/-! ### The commands -/

/-- A command that acts only while the pulse is not absent. -/
theorem Course.of_whilePulsed {effect : State → State} (h : s.whilePulsed effect = .next t)
    (he : Course s (effect s)) : Course s t := by
  obtain rfl := Host.Outcome.next.inj h
  split
  · exact .refl
  · exact he

/-- An event of the frame. -/
theorem Moves.of_whilePulsed {effect : State → State} (h : s.whilePulsed effect = .next t) (he : Moves s (effect s)) :
    Course s t := .of_whilePulsed h (Course.refl.moves he)

/-- A management cell, which acts on what the boundary leaves. -/
theorem Moves.of_managementCell {effect : State → State} (h : s.managementCell effect = .next t)
    (he : ∀ v, Moves v (effect v)) : Course s t :=
  .of_whilePulsed h ((Course.finishBoundary s).moves (he _))

/-- A line cell, which acts on what the boundary leaves, if its slot is a speech slot. -/
theorem Moves.of_lineCell {highway slot : Nat} {effect : Nat → State → State}
    (h : s.lineCell highway slot effect = .next t) (he : ∀ p v, Moves v (effect p v)) : Course s t := by
  refine .of_whilePulsed h ?_
  split
  · exact (Course.finishBoundary s).moves (he _ _)
  · exact .refl

/-- Every command is a course of moves and completions. -/
theorem exec_course {c : Instr} (h : exec c s = .next t) : Course s t := by
  have hs := Moves.refl s
  cases c
  all_goals simp only [exec] at h
  case hardwareReset => obtain rfl := Host.Outcome.next.inj h; exact Course.refl.moves (hs.then .reset)
  case firstFramePulse => obtain rfl := Host.Outcome.next.inj h; exact .framePulse s false
  case frameBoundary cutShort => obtain rfl := Host.Outcome.next.inj h; exact .framePulse s cutShort
  case framePulseAbsent loss =>
    unfold execFramePulseAbsent at h
    split at h
    all_goals obtain rfl := Host.Outcome.next.inj h; exact Course.refl.moves hs.elsewhere
  case lineIdle | lineCellDiscarded | managementIdle => obtain rfl := Host.Outcome.next.inj h; exact .refl
  case secondCountAdvance => exact Moves.of_whilePulsed h hs.takeSecond
  case verificationTake => exact Moves.of_whilePulsed h hs.takeVerifications
  case verificationComplete => exact .of_whilePulsed h Course.refl.completions
  case lineReplySend highway => exact Moves.of_whilePulsed h (hs.takeLineCell _)
  case reportSend => exact Moves.of_whilePulsed h hs.takeReport
  case upstreamArrival position arrival =>
    cases arrival with
    | carried code => exact Moves.of_whilePulsed h (hs.upstreamCarried _ _)
    | supplied => exact Moves.of_whilePulsed h (hs.supplyUp _)
  case downstreamArrival position arrival =>
    cases arrival with
    | carried code => exact Moves.of_whilePulsed h (hs.downstreamCarried _ _)
    | supplied => exact Moves.of_whilePulsed h (hs.supplyDown _)
  case txFrameAdvance context => exact Moves.of_whilePulsed h (hs.takeTx _)
  case playoutAdvance channel => exact Moves.of_whilePulsed h (hs.takePlayout _)
  case holdOffDeadline position => exact Moves.of_whilePulsed h (hs.takeHoldOff _)
  case answerDeadline entry => exact Moves.of_whilePulsed h (hs.takeAnswerDeadline _)
  case refreshLapse entry => exact Moves.of_whilePulsed h (hs.takeRefresh _)
  case rechallengeDeadline entry => exact Moves.of_whilePulsed h (hs.takeRechallenge _)
  case waitingCodeSent position side => exact Moves.of_whilePulsed h (hs.driveSlot _ _)
  case signOn highway slot identity => exact Moves.of_lineCell h fun _ v => (Moves.refl v).signOnAt _ _
  case answer highway slot response => exact Moves.of_lineCell h fun _ v => (Moves.refl v).answerAt _ _
  case keepalive highway slot => exact Moves.of_lineCell h fun _ v => (Moves.refl v).keepaliveAt _
  case signOff highway slot => exact Moves.of_lineCell h fun _ v => (Moves.refl v).signOffAt _
  case unknownKind => exact Moves.of_managementCell h fun v => (Moves.refl v).refuse _ _ _
  case loadExtension => exact Moves.of_managementCell h fun v => (Moves.refl v).loadExtension _ _ _ _
  case unloadExtension => exact Moves.of_managementCell h fun v => (Moves.refl v).unloadExtension _ _
  case secretHalf => exact Moves.of_managementCell h fun v => (Moves.refl v).secretHalf _ _ _ _ _
  case forceSignOff => exact Moves.of_managementCell h fun v => (Moves.refl v).forceSignOff _ _
  case bar => exact Moves.of_managementCell h fun v => (Moves.refl v).barEntry _ _
  case unbar => exact Moves.of_managementCell h fun v => (Moves.refl v).unbarEntry _ _
  case setGroupLimits => exact Moves.of_managementCell h fun v => (Moves.refl v).setGroupLimits _ _ _ _
  case setGroupTimes => exact Moves.of_managementCell h fun v => (Moves.refl v).setGroupTimes _ _ _ _
  case stagedHalf => exact Moves.of_managementCell h fun v => (Moves.refl v).stagedHalf _ _ _ _ _
  case openCall => exact Moves.of_managementCell h fun v => (Moves.refl v).openCall _ _ _ _
  case closeCall => exact Moves.of_managementCell h fun v => (Moves.refl v).closeCall _ _
  case setPositionTreatment => exact Moves.of_managementCell h fun v => (Moves.refl v).setPositionTreatment _ _ _ _
  case setPositionGain => exact Moves.of_managementCell h fun v => (Moves.refl v).setPositionGain _ _ _ _
  case loadPattern => exact Moves.of_managementCell h fun v => (Moves.refl v).loadPattern _ _ _ _ _ _
  case setPlayout => exact Moves.of_managementCell h fun v => (Moves.refl v).setPlayout _ _ _ _ _ _
  case stopPlayout => exact Moves.of_managementCell h fun v => (Moves.refl v).stopPlayout _ _
  case setDevice => exact Moves.of_managementCell h fun v => (Moves.refl v).setDevice _ _ _
  case read => exact Moves.of_managementCell h fun v => (Moves.refl v).readPage _ _ _ _
  case restartCalls => exact Moves.of_managementCell h fun v => (Moves.refl v).restart _ _
  case restartAll => exact Moves.of_managementCell h fun v => (Moves.refl v).restart _ _

/-- A step is such a course: taking a command off the queue is none of the four tables' concern. -/
theorem step_course (h : step s = .next t) : Course s t := by
  unfold step at h
  split at h
  · obtain rfl := Host.Outcome.next.inj h
    exact .refl
  · exact (Course.refl.moves (Moves.elsewhere (.refl s))).trans (exec_course h)

end Sys2Proof.Machine
end

section
/-! The outcomes of a verification (R96 to R105) as moves, as far as they are: a MATCH also binds and leaves a home, and
a bar needs a FIRST candidate to stand at an entry that is not ADMITTED. -/

namespace Sys2Proof.Machine

variable {s t u : State}

theorem Moves.closeContextOf (h : Moves s t) (e : Nat) (cause : CloseCause) : Moves s (t.closeContextOf e cause) := by
  unfold State.closeContextOf
  cases (t.entry e).context with
  | none => exact h
  | some j => exact h.closeContext j cause

theorem Moves.displaceOwner (h : Moves s t) (p e : Nat) : Moves s (t.displaceOwner p e) := by
  unfold State.displaceOwner
  cases (t.position p).owner with
  | none => exact h
  | some x =>
    dsimp only
    split
    · exact h
    · exact ((h.dropCandidate x).endAdmission x _ (by decide)).report _

theorem Moves.welcome (h : Moves s t) (e p : Nat) (renew : Bool) : Moves s (t.welcome e p renew) := by
  have hloaded : Moves s (t.loadDeadlines e) := h.setEntry e
  exact (((hloaded.setEntry e).setPosition p).replyTo _ _).report _

theorem Moves.endRenewal (h : Moves s t) (e : Nat) (kind : CandidateKind) : Moves s (t.endRenewal e kind) := by
  cases kind with
  | first | move => exact h
  | renew => exact h.endAdmission e _ (by decide)

theorem Moves.applyNotReady (h : Moves s t) (e p : Nat) (kind : CandidateKind) : Moves s (t.applyNotReady e p kind) :=
  ((h.endRenewal e kind).replyTo _ _).report _

theorem Moves.barForFailures (h : Moves s t) {e : Nat} (p : Nat) {kind : CandidateKind}
    (hfirst : kind = .first → (t.entry e).state ≠ .admitted) : Moves s (t.barForFailures e p kind) := by
  unfold State.barForFailures
  dsimp only
  split
  · exact ((h.endAdmission e _ (by decide)).replyTo _ _).report _
  · exact (h.endAdmission e _ (by decide)).report _
  · next kind _ _ hmove hrenew =>
    refine Moves.report (h.outside (v := { t.entry e with state := .barred }) ?_ nofun) _
    cases hhome : (t.entry e).home with
    | none => exact .inr rfl
    | some q =>
      cases kind with
      | first => exact .inl (hfirst rfl)
      | move => exact absurd hhome (hmove q rfl)
      | renew => exact absurd hhome (hrenew q rfl)

/-- An entry with a failure counted (R102). -/
theorem Moves.countFailure (h : Moves s t) (e : Nat) :
    Moves s (t.setEntry e { t.entry e with failures := saturatingNext 7 (t.entry e).failures }) := h.setEntry e

theorem Moves.applyMismatch (h : Moves s t) {e : Nat} (p : Nat) {kind : CandidateKind}
    (hfirst : kind = .first → (t.entry e).state ≠ .admitted) : Moves s (t.applyMismatch e p kind) := by
  have hcounted := h.countFailure e
  unfold State.applyMismatch
  dsimp only
  split
  · refine Moves.report (.rejectWithBackoff (hcounted.barForFailures p fun hk => ?_) p _) _
    rw [State.entry_setEntry_self]
    exact hfirst hk
  · exact ((hcounted.endRenewal e kind).rejectWithBackoff p _).report _

end Sys2Proof.Machine
end

section
/-! Silence toward the switch (R36): every move and every completion keeps each listed position silent. -/

namespace Sys2Proof.Machine

variable {s t u : State}

/-- The silence law at the listed positions. -/
structure State.ListedSilent (s : State) : Prop where
  listed : ∀ x ∈ s.positions, x.2.silent

theorem Position.silent_reset : ({} : Position).silent := fun _ _ => rfl

theorem State.silent_of_listed (h : s.ListedSilent) : s.silent :=
  Table.forall_get (P := fun _ v => Position.silent v) h.listed fun _ => Position.silent_reset

theorem State.listedSilent_of_silent (hwf : s.wf = true) (h : s.silent) : s.ListedSilent := by
  obtain ⟨hpositions, -⟩ := State.restartTables_wf hwf
  refine ⟨fun x hx => ?_⟩
  have hread : s.position x.1 = x.2 := ((Table.mem_iff hpositions x.1 x.2).1 hx).1
  exact hread ▸ h x.1

theorem State.ListedSilent.of_positions (h : s.ListedSilent) (ht : t.positions = s.positions := by rfl) :
    t.ListedSilent := ⟨by rw [ht]; exact h.listed⟩

theorem State.ListedSilent.setPosition (h : s.ListedSilent) (p : Nat) {v : Position}
    (hv : (s.position p).silent → v.silent) : (s.setPosition p v).ListedSilent := by
  refine ⟨fun x hx => ?_⟩
  rcases Table.mem_set hx with rfl | ⟨hx, -⟩
  · exact hv (State.silent_of_listed h p)
  · exact h.listed x hx

theorem State.ListedSilent.mapAll (h : s.ListedSilent) {f : Position → Position} (hf : ∀ v, v.silent → (f v).silent)
    (ht : t.positions = Table.mapAll {} f s.positions) : t.ListedSilent := by
  refine ⟨fun x hx => ?_⟩
  rw [ht] at hx
  simp only [Table.mapAll, List.mem_filter, List.mem_map] at hx
  obtain ⟨⟨y, hy, rfl⟩, -⟩ := hx
  exact hf _ (h.listed y hy)

/-- A position that loses its owner is silenced unless it is in SWITCH LOOP (R36). -/
theorem Position.silent_withoutOwner (pos : Position) : pos.withoutOwner.silent := fun _ hloop => if_neg hloop

/-- A position without an owner that leaves SWITCH LOOP is silenced (R36, R49). -/
theorem Position.silent_treated {pos : Position} (h : pos.silent) (treatment : Treatment) (tone : Nat) :
    (pos.treated treatment tone).silent := by
  intro howner hloop
  unfold Position.treated at howner hloop ⊢
  dsimp only at howner hloop ⊢
  split
  · rfl
  · next hkept => exact h howner fun hr => hkept ⟨hr, hloop, howner⟩

theorem Position.silent_endFrame {pos : Position} (h : pos.silent) (cut : Bool) : (pos.endFrame cut).silent := by
  cases cut with
  | true =>
    intro howner hloop
    simp only [Position.endFrame, if_true] at howner hloop ⊢
    split
    · exact h howner hloop
    · rfl
  | false => exact ((Position.Kept.driveSwitch pos).trans (.driveLine _)).silent h

theorem Position.silent_restarted (pos : Position) : pos.restarted.silent := Position.silent_withoutOwner pos

theorem State.ListedSilent.closeContext (h : s.ListedSilent) (j : Nat) (cause : CloseCause) :
    (s.closeContext j cause).ListedSilent := by
  unfold State.closeContext
  split
  · exact h
  · next call _ =>
    rw [State.report_frame]
    exact (h.setPosition call.position (v := { s.position call.position with context := none }) id).of_positions

theorem State.ListedSilent.unbind (h : s.ListedSilent) (e : Nat) : (s.unbind e).ListedSilent := by
  unfold State.unbind
  dsimp only
  split
  · exact h.of_positions
  · next p _ =>
    exact State.ListedSilent.setPosition h.of_positions p fun _ => Position.silent_withoutOwner _

theorem State.ListedSilent.endAdmission (h : s.ListedSilent) (e : Nat) (cause : CloseCause) (state : EntryState) :
    (s.endAdmission e cause state).ListedSilent := by
  have hclosed : (s.closeContextOf e cause).ListedSilent := by
    unfold State.closeContextOf
    split
    · exact h
    · exact h.closeContext _ cause
  exact (hclosed.unbind e).of_positions

/-- The owner of a position in a call is not the silence law's concern (R36). -/
theorem State.ListedSilent.openContext (h : s.ListedSilent) (tag : Byte) (j : Nat) {p e : Nat} (loop : Bool) (key : Key)
    (howner : (s.position p).owner = some e) : (s.openContext tag j p e loop key).ListedSilent := by
  have hopened : ((s.position p).opened j).silent := fun h0 => absurd (howner.symm.trans h0) nofun
  have hset := h.setPosition p fun _ => hopened
  unfold State.openContext State.accept
  dsimp only
  rw [State.joinCell_frame]
  exact hset.of_positions

theorem Move.keeps_silence (h : s.ListedSilent) (hmove : Move s t) : t.ListedSilent := by
  cases hmove with
  | elsewhere hsame => exact h.of_positions hsame.positions
  | position p hv => exact h.setPosition p hv.silent
  | entry | group | context | outside => exact h.of_positions
  | treat p treatment tone => exact h.setPosition p fun hp => Position.silent_treated hp treatment tone
  | openCall tag loop key hfree howner => exact h.openContext tag _ loop key howner
  | close j cause => exact h.closeContext j cause
  | endAdmission e cause => exact h.endAdmission e cause _
  | endFrame cut => exact h.mapAll (fun _ hv => Position.silent_endFrame hv cut) rfl
  | restartCalls => exact h.mapAll (f := fun v => { v with context := none }) (fun _ hv => hv) rfl
  | restartAll =>
    have hclosed : s.restartCalls.ListedSilent :=
      h.mapAll (f := fun v => { v with context := none }) (fun _ hv => hv) rfl
    exact hclosed.mapAll (fun v _ => Position.silent_restarted v) rfl
  | reset => exact ⟨List.forall_mem_nil _⟩

theorem Moves.keeps_silence (h : Moves s t) (hs : s.ListedSilent) : t.ListedSilent :=
  h.keeps (fun _ _ => Move.keeps_silence) hs

/-! ### Completions (R96 to R105) -/

theorem State.ListedSilent.bind (h : s.ListedSilent) (e p : Nat) : (s.bind e p).ListedSilent :=
  State.ListedSilent.setPosition h.of_positions p fun _ => nofun

theorem State.ListedSilent.leaveHome (h : s.ListedSilent) (e p : Nat) : (s.leaveHome e p).ListedSilent := by
  unfold State.leaveHome
  split
  · exact h
  · have hclosed := ((Moves.refl s).closeContextOf e .moved).keeps_silence h
    exact (((Moves.refl _).replyTo _ _).report _).keeps_silence (hclosed.unbind e)

theorem State.ListedSilent.applyMatch (h : s.ListedSilent) (e p : Nat) (kind : CandidateKind) :
    (s.applyMatch e p kind).ListedSilent := by
  have hbound (v : State) (hv : v.ListedSilent) : (((v.displaceOwner p e).bind e p).welcome e p false).ListedSilent :=
    ((Moves.refl _).welcome e p false).keeps_silence ((((Moves.refl v).displaceOwner p e).keeps_silence hv).bind e p)
  cases kind with
  | first => exact hbound s h
  | move => exact hbound _ (h.leaveHome e p)
  | renew => exact ((Moves.refl s).welcome e p true).keeps_silence h

theorem State.ListedSilent.barForFailures (h : s.ListedSilent) (e p : Nat) (kind : CandidateKind) :
    (s.barForFailures e p kind).ListedSilent := by
  unfold State.barForFailures
  dsimp only
  split
  · exact (((Moves.refl _).replyTo _ _).report _).keeps_silence (h.endAdmission e .barred .barred)
  · exact ((Moves.refl _).report _).keeps_silence (h.endAdmission e .barred .barred)
  · exact ((Moves.refl _).report _).keeps_silence h.of_positions

theorem State.ListedSilent.applyMismatch (h : s.ListedSilent) (e p : Nat) (kind : CandidateKind) :
    (s.applyMismatch e p kind).ListedSilent := by
  have hcounted := ((Moves.refl s).countFailure e).keeps_silence h
  unfold State.applyMismatch
  dsimp only
  split
  · exact (((Moves.refl _).rejectWithBackoff p _).report _).keeps_silence (hcounted.barForFailures e p kind)
  · exact ((((Moves.refl _).endRenewal e kind).rejectWithBackoff p _).report _).keeps_silence hcounted

theorem State.ListedSilent.completeItem (h : s.ListedSilent) (f : FlightItem) : (s.completeItem f).ListedSilent := by
  unfold State.completeItem
  split
  · exact h
  · split
    · exact h
    · next c _ =>
      have hremoved := ((Moves.refl s).removeCandidate f.item.entry f.item.position).keeps_silence h
      cases f.verdict with
      | matched => exact hremoved.applyMatch _ _ _
      | mismatch => exact hremoved.applyMismatch _ _ _
      | notReady => exact ((Moves.refl _).applyNotReady _ _ _).keeps_silence hremoved

/-- A slot that is driven has been driven, and a silent position's with 255 (R34, R36). -/
theorem Position.driveSwitch_of_silent {pos : Position} (h : pos.silent) (howner : pos.owner = none)
    (hloop : pos.requested ≠ .switchLoop) :
    pos.driveSwitch.switchDriven = true ∧ (pos.switchDriven = false → pos.driveSwitch.switchSending = 255) := by
  unfold Position.driveSwitch
  split
  · next hdriven => exact ⟨hdriven, fun hnot => absurd (hnot.symm.trans hdriven) nofun⟩
  · exact ⟨rfl, fun _ => h howner hloop⟩

/-- Settles O55: a step is a course of moves and completions, each of which keeps every listed position silent. -/
theorem everyStepKeepsSilence : Obligations.EveryStepKeepsSilence := fun _ _ hwf hsilent hstep =>
  ⟨State.silent_of_listed <|
      (step_course hstep).keeps (fun _ _ => Move.keeps_silence) (fun _ f h => h.completeItem f)
        (State.listedSilent_of_silent hwf hsilent),
    fun p => Position.driveSwitch_of_silent (hsilent p)⟩

end Sys2Proof.Machine
end

section
/-! The laws of calls (R38, R66, R114, R116), in the form that every move keeps: they take what they need of admissions
and candidates along, and a table only has to be canonical below some bound. -/

namespace Sys2Proof.Machine

variable {α : Type} {s t u : State}

/-! ### Canonical tables -/

/-- A table in its canonical form below some bound. -/
def Table.Canonical [DecidableEq α] (d : α) (t : Table α) : Prop := ∃ n, Table.wf n d t = true

theorem Table.wf_mono [DecidableEq α] {n m : Nat} {d : α} {t : Table α} (hnm : n ≤ m) (h : Table.wf n d t = true) :
    Table.wf m d t = true := by
  induction t with
  | nil => rfl
  | cons x rest ih =>
    obtain ⟨k, v⟩ := x
    obtain ⟨hk, hv, hrising, hrest⟩ := Table.wf_cons.1 h
    exact Table.wf_cons.2 ⟨hk.trans_le hnm, hv, hrising, ih hrest⟩

theorem Table.Canonical.set [DecidableEq α] {d : α} {t : Table α} (h : Table.Canonical d t) (i : Nat) (v : α) :
    Table.Canonical d (Table.set d t i v) := by
  obtain ⟨n, hn⟩ := h
  exact ⟨max n (i + 1), Table.set_wf (Table.wf_mono (le_max_left ..) hn) (lt_max_of_lt_right (Nat.lt_succ_self i))⟩

theorem Table.Canonical.mapAll [DecidableEq α] {d : α} {t : Table α} (h : Table.Canonical d t) (f : α → α) :
    Table.Canonical d (Table.mapAll d f t) := by
  obtain ⟨n, hn⟩ := h
  exact ⟨n, Table.map_wf f hn⟩

theorem Table.Canonical.get_mapAll [DecidableEq α] {d : α} {t : Table α} (h : Table.Canonical d t) {f : α → α}
    (hf : f d = d) (i : Nat) : Table.get d (Table.mapAll d f t) i = f (Table.get d t i) := by
  obtain ⟨n, hn⟩ := h
  exact Table.get_mapAll hn f hf i

/-- A listed record of a canonical table is the one that its index reads as. -/
theorem Table.Canonical.get_of_mem [DecidableEq α] {d : α} {t : Table α} (h : Table.Canonical d t) {x : Nat × α}
    (hx : x ∈ t) : Table.get d t x.1 = x.2 := by
  obtain ⟨n, hn⟩ := h
  exact ((Table.mem_iff hn x.1 x.2).1 hx).1

/-! ### The OPEN contexts of a group (R66) -/

theorem Context.ends_eq_some {c : Context} {p e : Nat} :
    c.ends = some (p, e) ↔ ∃ call, c.call = some call ∧ call.position = p ∧ call.entry = e := by
  simp [Context.ends, Call.ends]

/-- Whether a context counts is told by the ends of its call. -/
theorem State.countedIn_eq (s : State) (g : Nat) (c : Context) :
    s.countedIn g c = c.ends.any fun x => decide ((s.entry x.2).group = g) := by
  unfold State.countedIn Context.ends
  cases c.call <;> rfl

theorem State.openIn_setContext (h : Table.Canonical {} s.contexts) (j : Nat) (v : Context) (g : Nat) :
    (s.setContext j v).openIn g + (if s.countedIn g (s.context j) then 1 else 0) =
      s.openIn g + (if s.countedIn g v then 1 else 0) := by
  obtain ⟨n, hn⟩ := h
  exact Table.countP_set hn (s.countedIn g) rfl j v

/-- Two states whose contexts count alike have as many OPEN ones in a group. -/
theorem State.openIn_congr {g : Nat} (h : ∀ x ∈ s.contexts, t.countedIn g x.2 = s.countedIn g x.2)
    (hcontexts : t.contexts = s.contexts := by rfl) : t.openIn g = s.openIn g := by
  unfold State.openIn
  rw [hcontexts]
  exact List.countP_congr fun x hx => by rw [h x hx]

/-- Entries of the same groups count the same contexts. -/
theorem State.countedIn_congr (h : ∀ e, (t.entry e).group = (s.entry e).group) (g : Nat) (c : Context) :
    t.countedIn g c = s.countedIn g c := by
  simp only [State.countedIn, h]

/-! ### The laws -/

/-- The laws of calls and budgets, with what keeps them: an owner is ADMITTED at its position, and a FIRST candidate
stands at an entry that is not ADMITTED (R54, R66, R76, R114, R116). -/
structure State.CallLaws (s : State) : Prop where
  positions : Table.Canonical {} s.positions
  entries : Table.Canonical {} s.entries
  contexts : Table.Canonical {} s.contexts
  owners : ∀ p e, (s.position p).owner = some e → (s.entry e).state = .admitted ∧ (s.entry e).home = some p
  firsts : ∀ e, (s.entry e).firstAgrees
  /-- what an OPEN context names, names it -/
  joined : ∀ j p e, (s.context j).ends = some (p, e) →
    (s.position p).context = some j ∧ (s.entry e).context = some j ∧ (s.entry e).state = .admitted ∧
      (s.entry e).home = some p
  ofPosition : ∀ p j, (s.position p).context = some j → ∃ e, (s.context j).ends = some (p, e)
  ofEntry : ∀ e j, (s.entry e).context = some j → ∃ p, (s.context j).ends = some (p, e)
  unlooped : ∀ p, (s.position p).context ≠ none → (s.position p).requested.isLoop = false
  budgets : s.budgetsAgree

theorem State.CallLaws.of_agrees (hwf : s.wf = true) (h : s.agrees) : s.CallLaws := by
  obtain ⟨⟨howners, -⟩, -, ⟨-, hkinds⟩, ⟨hopen, hposition, hentry, hloop⟩, hbudgets, -⟩ := h
  obtain ⟨hpositions, hentries, -, hcontexts, -⟩ := State.restartTables_wf hwf
  refine ⟨⟨_, hpositions⟩, ⟨_, hentries⟩, ⟨_, hcontexts⟩, fun p e => (howners p e).1, fun e c hc hfirst hadmitted => ?_,
    fun j p e hends => ?_, fun p j hj => ?_, fun e j hj => ?_, hloop, hbudgets⟩
  · have hkind := hkinds e c hc
    simp only [Entry.kindAgrees, hfirst, hadmitted] at hkind
    nomatch hkind
  · obtain ⟨call, hcall, rfl, rfl⟩ := Context.ends_eq_some.1 hends
    exact hopen j call hcall
  · obtain ⟨call, hcall, hp⟩ := hposition p j hj
    exact ⟨call.entry, Context.ends_eq_some.2 ⟨call, hcall, hp, rfl⟩⟩
  · obtain ⟨call, hcall, he⟩ := hentry e j hj
    exact ⟨call.position, Context.ends_eq_some.2 ⟨call, hcall, rfl, he⟩⟩

theorem State.CallLaws.callsAgree (h : s.CallLaws) : s.callsAgree := by
  refine ⟨fun j call hcall => ?_, fun p j hj => ?_, fun e j hj => ?_, h.unlooped⟩
  · exact h.joined j _ _ (Context.ends_eq_some.2 ⟨call, hcall, rfl, rfl⟩)
  · obtain ⟨e, hends⟩ := h.ofPosition p j hj
    obtain ⟨call, hcall, hp, -⟩ := Context.ends_eq_some.1 hends
    exact ⟨call, hcall, hp⟩
  · obtain ⟨p, hends⟩ := h.ofEntry e j hj
    obtain ⟨call, hcall, -, he⟩ := Context.ends_eq_some.1 hends
    exact ⟨call, hcall, he⟩

/-- An entry that is ADMITTED nowhere is in no call and owns no position. -/
theorem State.CallLaws.unhoused (h : s.CallLaws) {e : Nat}
    (he : (s.entry e).state ≠ .admitted ∨ (s.entry e).home = none) :
    (s.entry e).context = none ∧ ∀ p, (s.position p).owner ≠ some e := by
  have hnowhere (p : Nat) : ¬((s.entry e).state = .admitted ∧ (s.entry e).home = some p) := by
    rintro ⟨hstate, hhome⟩
    rcases he with he | he
    · exact he hstate
    · rw [he] at hhome; nomatch hhome
  refine ⟨?_, fun p hp => hnowhere p (h.owners p e hp)⟩
  by_contra hcontext
  obtain ⟨j, hj⟩ := Option.ne_none_iff_exists'.1 hcontext
  obtain ⟨p, hends⟩ := h.ofEntry e j hj
  obtain ⟨-, -, hadmitted⟩ := h.joined j p e hends
  exact hnowhere p hadmitted

/-! ### Writes of one record -/

theorem State.CallLaws.sameTables (h : s.CallLaws) (ht : SameTables s t) : t.CallLaws := by
  have hposition : t.position = s.position := funext fun p => by rw [State.position, ht.positions]; rfl
  have hentry : t.entry = s.entry := funext fun e => by rw [State.entry, ht.entries]; rfl
  have hgroup : t.group = s.group := funext fun g => by rw [State.group, ht.groups]; rfl
  have hcontext : t.context = s.context := funext fun j => by rw [State.context, ht.contexts]; rfl
  have hopen (g : Nat) : t.openIn g = s.openIn g :=
    State.openIn_congr (fun x _ => State.countedIn_congr (fun e => by rw [hentry]) g x.2) ht.contexts
  refine ⟨?_, ?_, ?_, ?_, ?_, ?_, ?_, ?_, ?_, fun g => ?_⟩
  · rw [ht.positions]; exact h.positions
  · rw [ht.entries]; exact h.entries
  · rw [ht.contexts]; exact h.contexts
  · rw [hposition, hentry]; exact h.owners
  · rw [hentry]; exact h.firsts
  · rw [hposition, hentry, hcontext]; exact h.joined
  · rw [hposition, hcontext]; exact h.ofPosition
  · rw [hentry, hcontext]; exact h.ofEntry
  · rw [hposition]; exact h.unlooped
  · rw [hgroup, hopen]; exact h.budgets g

/-- A write of a position that leaves its context; an owner it gives has to be ADMITTED there. -/
theorem State.CallLaws.setPosition (h : s.CallLaws) (p : Nat) {v : Position}
    (howner : ∀ e, v.owner = some e → (s.entry e).state = .admitted ∧ (s.entry e).home = some p)
    (hcontext : v.context = (s.position p).context)
    (hloop : v.context ≠ none → v.requested.isLoop = false) : (s.setPosition p v).CallLaws := by
  have hsame (q : Nat) : ((s.setPosition p v).position q).context = (s.position q).context := by
    rw [State.position_setPosition]
    split
    · next hq => rw [hq, hcontext]
    · rfl
  refine ⟨h.positions.set p v, h.entries, h.contexts, fun q e hq => ?_, h.firsts, fun j q e hends => ?_,
    fun q j hq => ?_, h.ofEntry, fun q hq => ?_, h.budgets⟩
  · rw [State.position_setPosition] at hq
    split at hq
    · next heq => exact heq ▸ howner e hq
    · exact h.owners q e hq
  · rw [hsame]; exact h.joined j q e hends
  · rw [hsame] at hq; exact h.ofPosition q j hq
  · rw [State.position_setPosition] at hq ⊢
    split at hq
    · next heq => rw [if_pos heq]; exact hloop hq
    · next heq => rw [if_neg heq]; exact h.unlooped q hq

/-- A position's record that keeps owner, context and treatment. -/
theorem State.CallLaws.keepPosition (h : s.CallLaws) (p : Nat) {v : Position} (hv : (s.position p).Kept v) :
    (s.setPosition p v).CallLaws := by
  refine h.setPosition p (fun e he => h.owners p e (hv.owner ▸ he)) hv.context fun hcontext => ?_
  rw [hv.requested]
  exact h.unlooped p (hv.context ▸ hcontext)

/-- A write of an entry: its context stays, and the rest of what the laws read stays or concerns no position. -/
theorem State.CallLaws.setEntry (h : s.CallLaws) (e : Nat) {v : Entry} (hcontext : v.context = (s.entry e).context)
    (hfirst : v.firstAgrees) (howner : ∀ p, (s.position p).owner = some e → v.state = .admitted ∧ v.home = some p)
    (hcall : (s.entry e).context ≠ none →
      v.state = (s.entry e).state ∧ v.home = (s.entry e).home ∧ v.group = (s.entry e).group) :
    (s.setEntry e v).CallLaws := by
  have hsame (f : Nat) : ((s.setEntry e v).entry f).context = (s.entry f).context := by
    rw [State.entry_setEntry]
    split
    · next hf => rw [hf, hcontext]
    · rfl
  have hinCall {j p f : Nat} (hends : (s.context j).ends = some (p, f)) :
      ((s.setEntry e v).entry f).state = (s.entry f).state ∧ ((s.setEntry e v).entry f).home = (s.entry f).home ∧
        ((s.setEntry e v).entry f).group = (s.entry f).group := by
    rw [State.entry_setEntry]
    split
    · next hf =>
      obtain ⟨-, hj, -⟩ := h.joined j p f hends
      subst hf
      exact hcall (by rw [hj]; nofun)
    · exact ⟨rfl, rfl, rfl⟩
  have hopen (g : Nat) : (s.setEntry e v).openIn g = s.openIn g := by
    refine State.openIn_congr fun x hx => ?_
    have hread : s.context x.1 = x.2 := h.contexts.get_of_mem hx
    rw [State.countedIn_eq, State.countedIn_eq]
    cases hends : x.2.ends with
    | none => rfl
    | some y =>
      obtain ⟨-, -, hgroup⟩ := hinCall (j := x.1) (p := y.1) (f := y.2) (by rw [hread, hends])
      rw [Option.any_some, Option.any_some, hgroup]
  refine ⟨h.positions, h.entries.set e v, h.contexts, fun p f hp => ?_, fun f => ?_, fun j p f hends => ?_,
    h.ofPosition, fun f j hf => ?_, h.unlooped, fun g => ?_⟩
  · rw [State.entry_setEntry]
    split
    · next hf => exact howner p (hf ▸ hp)
    · exact h.owners p f hp
  · rw [State.entry_setEntry]
    split
    · exact hfirst
    · exact h.firsts f
  · obtain ⟨hstate, hhome, -⟩ := hinCall hends
    rw [hsame, hstate, hhome]
    exact h.joined j p f hends
  · rw [hsame] at hf; exact h.ofEntry f j hf
  · rw [hopen]; exact h.budgets g

/-- An entry's record that keeps admission, call and group. -/
theorem State.CallLaws.keepEntry (h : s.CallLaws) (e : Nat) {v : Entry} (hv : (s.entry e).Kept v) :
    (s.setEntry e v).CallLaws := by
  refine h.setEntry e hv.context (hv.firsts (h.firsts e)) (fun p hp => ?_) fun _ => ⟨hv.state, hv.home, hv.group⟩
  rw [hv.state, hv.home]
  exact h.owners p e hp

/-- An entry that is in no call and owns no position may be written otherwise. -/
theorem State.CallLaws.setIdleEntry (h : s.CallLaws) {e : Nat} {v : Entry} (hidle : (s.entry e).context = none)
    (hunowned : ∀ p, (s.position p).owner ≠ some e) (hcontext : v.context = none) (hfirst : v.firstAgrees) :
    (s.setEntry e v).CallLaws :=
  h.setEntry e (hcontext.trans hidle.symm) hfirst (fun p hp => absurd hp (hunowned p)) fun hin => absurd hidle hin

theorem State.CallLaws.keepGroup (h : s.CallLaws) (g : Nat) {v : Group} (hv : (s.group g).Kept v) :
    (s.setGroup g v).CallLaws := by
  refine ⟨h.positions, h.entries, h.contexts, h.owners, h.firsts, h.joined, h.ofPosition, h.ofEntry, h.unlooped,
    fun k => ?_⟩
  rw [State.group_setGroup]
  split
  · next hk =>
    obtain ⟨hcount, hbudget⟩ := h.budgets g
    subst hk
    exact ⟨hv.inUse.trans hcount, hv.budget hbudget⟩
  · exact h.budgets k

theorem State.CallLaws.keepContext (h : s.CallLaws) (j : Nat) {v : Context} (hv : v.ends = (s.context j).ends) :
    (s.setContext j v).CallLaws := by
  have hsame (k : Nat) : ((s.setContext j v).context k).ends = (s.context k).ends := by
    rw [State.context_setContext]
    split
    · next hk => rw [hk, hv]
    · rfl
  refine ⟨h.positions, h.entries, h.contexts.set j v, h.owners, h.firsts, fun k p e => ?_, fun p k hp => ?_,
    fun e k he => ?_, h.unlooped, fun g => ?_⟩
  · rw [hsame]; exact h.joined k p e
  · rw [hsame]; exact h.ofPosition p k hp
  · rw [hsame]; exact h.ofEntry e k he
  · have hcount := State.openIn_setContext h.contexts j v g
    rw [State.countedIn_eq, State.countedIn_eq, hv] at hcount
    rw [Nat.add_right_cancel hcount]
    exact h.budgets g

end Sys2Proof.Machine
end

section
/-! The laws of calls when a call begins and when it ends: it does so at the context, the position and the entry at
once, and the group's in-use count follows. -/

namespace Sys2Proof.Machine

variable {s t u : State}

/-! ### How a call begins and ends (R118, R120) -/

theorem State.context_of_openContextAt (h : s.CallLaws) {p : Nat} (hidle : s.openContextAt p = none) :
    (s.position p).context = none := by
  cases hj : (s.position p).context with
  | none => rfl
  | some j =>
    obtain ⟨e, hends⟩ := h.ofPosition p j hj
    obtain ⟨call, hcall, -⟩ := Context.ends_eq_some.1 hends
    simp [State.openContextAt, hj, Context.isOpen, hcall] at hidle

/-- The four records that an accepted OPEN CALL writes (R118). -/
def State.joinCall (s : State) (j p e : Nat) (loop : Bool) (key : Key) : State :=
  (((s.setContext j ((s.context j).opened p e loop key)).setPosition p ((s.position p).opened j)).setEntry e
    { s.entry e with context := some j }).setGroup (s.entry e).group
    { s.group (s.entry e).group with inUse := (s.group (s.entry e).group).inUse + 1 }

theorem State.openContext_tables (s : State) (tag : Byte) (j p e : Nat) (loop : Bool) (key : Key) :
    SameTables (s.joinCall j p e loop key) (s.openContext tag j p e loop key) := by
  unfold State.openContext State.accept
  dsimp only
  rw [State.joinCell_frame]
  exact ⟨rfl, rfl, rfl, rfl⟩

theorem State.openIn_joinCall (h : s.CallLaws) {j : Nat} (hfree : (s.context j).call = none) (p e : Nat) (loop : Bool)
    (key : Key) (g : Nat) :
    (s.joinCall j p e loop key).openIn g = s.openIn g + if g = (s.entry e).group then 1 else 0 := by
  have hgroups (f : Nat) : ((s.joinCall j p e loop key).entry f).group = (s.entry f).group := by
    simp only [State.joinCall, State.entry_setGroup, State.entry_setEntry, State.entry_setPosition,
      State.entry_setContext]
    split
    · next hf => rw [hf]
    · rfl
  have hcount := State.openIn_setContext h.contexts j ((s.context j).opened p e loop key) g
  have hsame : (s.joinCall j p e loop key).openIn g = (s.setContext j ((s.context j).opened p e loop key)).openIn g :=
    State.openIn_congr fun x _ => State.countedIn_congr hgroups g x.2
  rw [hsame]
  simpa [State.countedIn, hfree, Context.opened, eq_comm] using hcount

theorem State.CallLaws.joinCall (h : s.CallLaws) {j p e : Nat} (loop : Bool) (key : Key)
    (hfree : (s.context j).call = none) (howner : (s.position p).owner = some e)
    (hloop : (s.position p).requested.isLoop = false) (hidle : s.openContextAt p = none)
    (hbudget : (s.groupOf e).inUse < (s.groupOf e).budget) : (s.joinCall j p e loop key).CallLaws := by
  obtain ⟨hadmitted, hhome⟩ := h.owners p e howner
  have hposition := State.context_of_openContextAt h hidle
  have hentry : (s.entry e).context = none := by
    by_contra hin
    obtain ⟨k, hk⟩ := Option.ne_none_iff_exists'.1 hin
    obtain ⟨q, hends⟩ := h.ofEntry e k hk
    obtain ⟨hq, -, -, hhome'⟩ := h.joined k q e hends
    obtain rfl := Option.some.inj (hhome.symm.trans hhome')
    rw [hposition] at hq
    nomatch hq
  have hends0 : (s.context j).ends = none := by rw [Context.ends, hfree]; rfl
  have hpos (q : Nat) : (s.joinCall j p e loop key).position q =
      if q = p then (s.position p).opened j else s.position q := State.position_setPosition _ _ _ _
  have hent (f : Nat) : (s.joinCall j p e loop key).entry f =
      if f = e then { s.entry e with context := some j } else s.entry f := State.entry_setEntry _ _ _ _
  have hctx (k : Nat) : ((s.joinCall j p e loop key).context k).ends =
      if k = j then some (p, e) else (s.context k).ends := by
    have hread : (s.joinCall j p e loop key).context k =
        if k = j then (s.context j).opened p e loop key else s.context k :=
      State.context_setContext s j k ((s.context j).opened p e loop key)
    rw [hread]
    split <;> rfl
  refine ⟨h.positions.set _ _, h.entries.set _ _, h.contexts.set j ((s.context j).opened p e loop key),
    fun q f hq => ?_, fun f => ?_, fun k q f hends => ?_, fun q k hq => ?_, fun f k hf => ?_, fun q hq => ?_,
    fun g => ?_⟩
  · have hq : (s.position q).owner = some f := by
      rw [hpos] at hq
      split at hq
      · next heq => rw [heq]; exact hq
      · exact hq
    rw [hent]
    split
    · next hf => exact hf ▸ h.owners q f hq
    · exact h.owners q f hq
  · rw [hent]
    split
    · exact h.firsts e
    · exact h.firsts f
  · rw [hctx] at hends
    split at hends
    · next hk =>
      obtain ⟨rfl, rfl⟩ := Prod.mk.inj (Option.some.inj hends)
      rw [hpos, hent, if_pos rfl, if_pos rfl, hk]
      exact ⟨rfl, rfl, hadmitted, hhome⟩
    · obtain ⟨hqk, hfk, hadm⟩ := h.joined k q f hends
      have hqp : q ≠ p := by rintro rfl; rw [hposition] at hqk; nomatch hqk
      have hfe : f ≠ e := by rintro rfl; rw [hentry] at hfk; nomatch hfk
      rw [hpos, hent, if_neg hqp, if_neg hfe]
      exact ⟨hqk, hfk, hadm⟩
  · rw [hpos] at hq
    split at hq
    · next heq =>
      obtain rfl := Option.some.inj hq
      exact ⟨e, by rw [hctx, if_pos rfl, heq]⟩
    · obtain ⟨f, hends⟩ := h.ofPosition q k hq
      have hkj : k ≠ j := by rintro rfl; rw [hends0] at hends; nomatch hends
      exact ⟨f, by rw [hctx, if_neg hkj, hends]⟩
  · rw [hent] at hf
    split at hf
    · next heq =>
      obtain rfl := Option.some.inj hf
      exact ⟨p, by rw [hctx, if_pos rfl, heq]⟩
    · obtain ⟨q, hends⟩ := h.ofEntry f k hf
      have hkj : k ≠ j := by rintro rfl; rw [hends0] at hends; nomatch hends
      exact ⟨q, by rw [hctx, if_neg hkj, hends]⟩
  · rw [hpos] at hq ⊢
    split at hq
    · next heq => rw [if_pos heq]; exact hloop
    · next heq => rw [if_neg heq]; exact h.unlooped q hq
  · have hread : (s.joinCall j p e loop key).group g =
        if g = (s.entry e).group then
          { s.group (s.entry e).group with inUse := (s.group (s.entry e).group).inUse + 1 }
        else s.group g := State.group_setGroup _ _ _ _
    rw [State.openIn_joinCall h hfree, hread]
    obtain ⟨hcount, hle⟩ := h.budgets g
    split
    · next hg =>
      subst hg
      exact ⟨congrArg (· + 1) hcount, hbudget⟩
    · exact ⟨hcount, hle⟩

theorem State.CallLaws.openContext (h : s.CallLaws) (tag : Byte) {j p e : Nat} (loop : Bool) (key : Key)
    (hfree : (s.context j).call = none) (howner : (s.position p).owner = some e)
    (hloop : (s.position p).requested.isLoop = false) (hidle : s.openContextAt p = none)
    (hbudget : (s.groupOf e).inUse < (s.groupOf e).budget) : (s.openContext tag j p e loop key).CallLaws :=
  (h.joinCall loop key hfree howner hloop hidle hbudget).sameTables (s.openContext_tables tag j p e loop key)

theorem State.openIn_releaseContext (h : s.CallLaws) {j : Nat} {call : Call} (hcall : (s.context j).call = some call)
    (g : Nat) :
    (s.releaseContext j call).openIn g + (if g = (s.entry call.entry).group then 1 else 0) = s.openIn g := by
  have hgroups (f : Nat) : ((s.releaseContext j call).entry f).group = (s.entry f).group := by
    rw [State.entry_releaseContext]
    split
    · next hf => rw [hf]
    · rfl
  have hcount := State.openIn_setContext h.contexts j
    { s.context j with call := none, staged := none, window := [] } g
  have hsame : (s.releaseContext j call).openIn g =
      (s.setContext j { s.context j with call := none, staged := none, window := [] }).openIn g :=
    State.openIn_congr fun x _ => State.countedIn_congr hgroups g x.2
  rw [hsame]
  simpa [State.countedIn, hcall, eq_comm] using hcount

theorem State.CallLaws.releaseContext (h : s.CallLaws) {j : Nat} {call : Call}
    (hcall : (s.context j).call = some call) : (s.releaseContext j call).CallLaws := by
  have hends : (s.context j).ends = some (call.position, call.entry) := by rw [Context.ends, hcall]; rfl
  obtain ⟨hpj, hej, -⟩ := h.joined j _ _ hends
  have hpos := s.position_releaseContext j call
  have hent := s.entry_releaseContext j call
  have hctx (k : Nat) : ((s.releaseContext j call).context k).ends = if k = j then none else (s.context k).ends := by
    rw [State.context_releaseContext]
    split <;> rfl
  refine ⟨h.positions.set _ _, h.entries.set _ _, h.contexts.set _ _, fun q f hq => ?_, fun f => ?_,
    fun k q f hkends => ?_, fun q k hq => ?_, fun f k hf => ?_, fun q hq => ?_, fun g => ?_⟩
  · have hq : (s.position q).owner = some f := by
      rw [hpos] at hq
      split at hq
      · next heq => rw [heq]; exact hq
      · exact hq
    rw [hent]
    split
    · next hf => exact hf ▸ h.owners q f hq
    · exact h.owners q f hq
  · rw [hent]
    split
    · exact h.firsts call.entry
    · exact h.firsts f
  · rw [hctx] at hkends
    split at hkends
    · nomatch hkends
    · next hkj =>
      obtain ⟨hqk, hfk, hadm⟩ := h.joined k q f hkends
      have hqp : q ≠ call.position := by
        rintro rfl; exact hkj (Option.some.inj (hqk.symm.trans hpj))
      have hfe : f ≠ call.entry := by
        rintro rfl; exact hkj (Option.some.inj (hfk.symm.trans hej))
      rw [hpos, hent, if_neg hqp, if_neg hfe]
      exact ⟨hqk, hfk, hadm⟩
  · rw [hpos] at hq
    split at hq
    · nomatch hq
    · next hqp =>
      obtain ⟨f, hkends⟩ := h.ofPosition q k hq
      have hkj : k ≠ j := by
        rintro rfl
        exact hqp (Prod.mk.inj (Option.some.inj (hkends.symm.trans hends))).1
      exact ⟨f, by rw [hctx, if_neg hkj, hkends]⟩
  · rw [hent] at hf
    split at hf
    · nomatch hf
    · next hfe =>
      obtain ⟨q, hkends⟩ := h.ofEntry f k hf
      have hkj : k ≠ j := by
        rintro rfl
        exact hfe (Prod.mk.inj (Option.some.inj (hkends.symm.trans hends))).2
      exact ⟨q, by rw [hctx, if_neg hkj, hkends]⟩
  · rw [hpos] at hq ⊢
    split at hq
    · exact absurd rfl hq
    · next hqp => rw [if_neg hqp]; exact h.unlooped q hq
  · have hopen := State.openIn_releaseContext h hcall g
    obtain ⟨hcount, hle⟩ := h.budgets g
    rw [State.group_releaseContext]
    split
    · next hg =>
      rw [if_pos hg] at hopen
      subst hg
      dsimp only
      omega
    · next hg =>
      rw [if_neg hg] at hopen
      omega

theorem State.CallLaws.report (h : s.CallLaws) (r : Report) : (s.report r).CallLaws := by
  rw [State.report_frame]
  exact h.sameTables ⟨rfl, rfl, rfl, rfl⟩

theorem State.CallLaws.closeContext (h : s.CallLaws) (j : Nat) (cause : CloseCause) :
    (s.closeContext j cause).CallLaws := by
  unfold State.closeContext
  split
  · exact h
  · next call hcall => exact (h.releaseContext hcall).report _

end Sys2Proof.Machine
end

section
/-! The laws of calls along a step: each move keeps them, and so does each completion of a verification. -/

namespace Sys2Proof.Machine

variable {s t u : State}

/-! ### The end of an admission (R63, R116) -/

/-- An entry that is in no call, owns no position and holds no candidate: a MATCH may bind it. -/
structure State.Vacant (s : State) (e : Nat) : Prop where
  context : (s.entry e).context = none
  unowned : ∀ p, (s.position p).owner ≠ some e
  candidate : (s.entry e).candidate = none

theorem State.context_closeContext (h : s.CallLaws) {e j : Nat} (hj : (s.entry e).context = some j)
    (cause : CloseCause) : ((s.closeContext j cause).entry e).context = none := by
  obtain ⟨p, hends⟩ := h.ofEntry e j hj
  obtain ⟨call, hcall, -, rfl⟩ := Context.ends_eq_some.1 hends
  rw [State.closeContext_open s j cause call hcall, State.report_frame]
  show ((s.releaseContext j call).entry call.entry).context = none
  rw [State.entry_releaseContext, if_pos rfl]

/-- After the close of an entry's context the entry is in no call (R120). -/
theorem State.CallLaws.closeContextOf (h : s.CallLaws) (e : Nat) (cause : CloseCause) :
    (s.closeContextOf e cause).CallLaws ∧ ((s.closeContextOf e cause).entry e).context = none := by
  unfold State.closeContextOf
  cases hj : (s.entry e).context with
  | none => exact ⟨h, hj⟩
  | some j => exact ⟨h.closeContext j cause, State.context_closeContext h hj cause⟩

/-- After an unbinding an entry that is in no call owns no position (R63). -/
theorem State.CallLaws.unbind (h : s.CallLaws) {e : Nat} (hidle : (s.entry e).context = none) :
    (s.unbind e).CallLaws ∧ ((s.unbind e).entry e).context = none ∧ ∀ p, ((s.unbind e).position p).owner ≠ some e := by
  have hfirst : ({ s.entry e with home := none, refresh := none, rechallenge := none } : Entry).firstAgrees :=
    h.firsts e
  cases hhome : (s.entry e).home with
  | none =>
    have hunowned := (h.unhoused (.inr hhome)).2
    have heq : s.unbind e = s.setEntry e { s.entry e with home := none, refresh := none, rechallenge := none } := by
      simp [State.unbind, hhome]
    rw [heq, State.entry_setEntry_self]
    exact ⟨h.setIdleEntry hidle hunowned hidle hfirst, hidle, hunowned⟩
  | some p =>
    have hleft : (s.setPosition p (s.position p).withoutOwner).CallLaws :=
      h.setPosition p nofun rfl fun hin => h.unlooped p hin
    have hunowned (q : Nat) : ((s.setPosition p (s.position p).withoutOwner).position q).owner ≠ some e := by
      rw [State.position_setPosition]
      split
      · nofun
      · next hq => exact fun ho => hq (Option.some.inj ((h.owners q e ho).2.symm.trans hhome))
    have heq : s.unbind e = (s.setPosition p (s.position p).withoutOwner).setEntry e
        { s.entry e with home := none, refresh := none, rechallenge := none } := s.unbind_spec e p hhome
    rw [heq, State.entry_setEntry_self]
    exact ⟨hleft.setIdleEntry hidle hunowned hidle hfirst, hidle, hunowned⟩

theorem State.CallLaws.endAdmission (h : s.CallLaws) (e : Nat) (cause : CloseCause) {state : EntryState}
    (hstate : state ≠ .admitted) : (s.endAdmission e cause state).CallLaws := by
  obtain ⟨hclosed, hidle⟩ := h.closeContextOf e cause
  obtain ⟨hunbound, hidle, hunowned⟩ := hclosed.unbind hidle
  exact hunbound.setIdleEntry hidle hunowned hidle fun _ _ _ => hstate

/-! ### Frames and restarts -/

/-- The end of a frame leaves a position's owner, context and treatment (R34). -/
theorem Position.endFrame_kept (pos : Position) (cut : Bool) :
    (pos.endFrame cut).owner = pos.owner ∧ (pos.endFrame cut).context = pos.context ∧
      (pos.endFrame cut).requested = pos.requested := by
  cases cut with
  | true => exact ⟨rfl, rfl, rfl⟩
  | false =>
    have hkept := (Position.Kept.driveSwitch pos).trans (.driveLine _)
    exact ⟨hkept.owner, hkept.context, hkept.requested⟩

theorem State.CallLaws.endFrame (h : s.CallLaws) (cut : Bool) :
    State.CallLaws { s with positions := Table.mapAll {} (Position.endFrame cut) s.positions } := by
  have hread (p : Nat) : State.position { s with positions := Table.mapAll {} (Position.endFrame cut) s.positions } p =
      (s.position p).endFrame cut := h.positions.get_mapAll (by cases cut <;> rfl) p
  refine ⟨h.positions.mapAll _, h.entries, h.contexts, fun p e hp => ?_, h.firsts, fun j p e hends => ?_,
    fun p j hp => ?_, h.ofEntry, fun p hp => ?_, h.budgets⟩
  all_goals obtain ⟨howner, hcontext, hrequested⟩ := (s.position p).endFrame_kept cut
  · rw [hread, howner] at hp; exact h.owners p e hp
  · rw [hread, hcontext]; exact h.joined j p e hends
  · rw [hread, hcontext] at hp; exact h.ofPosition p j hp
  · rw [hread, hcontext] at hp
    rw [hread, hrequested]
    exact h.unlooped p hp

/-- A state without a call, whose positions, entries and groups know of none. -/
theorem State.CallLaws.of_idle (hpositions : Table.Canonical {} s.positions) (hentries : Table.Canonical {} s.entries)
    (hcontexts : Table.Canonical {} s.contexts)
    (howners : ∀ p e, (s.position p).owner = some e → (s.entry e).state = .admitted ∧ (s.entry e).home = some p)
    (hfirsts : ∀ e, (s.entry e).firstAgrees) (hfree : ∀ j, (s.context j).call = none)
    (hposition : ∀ p, (s.position p).context = none) (hentry : ∀ e, (s.entry e).context = none)
    (hgroup : ∀ g, (s.group g).inUse = 0) : s.CallLaws := by
  have hopen (g : Nat) : s.openIn g = 0 := by
    refine List.countP_eq_zero.2 fun x hx => ?_
    have hcall : x.2.call = none := by
      rw [← hcontexts.get_of_mem hx]
      exact hfree x.1
    simp [State.countedIn, hcall]
  refine ⟨hpositions, hentries, hcontexts, howners, hfirsts, fun j p e hends => ?_, fun p j hp => ?_, fun e j he => ?_,
    fun p hp => absurd (hposition p) hp, fun g => ?_⟩
  · rw [Context.ends, hfree] at hends; nomatch hends
  · rw [hposition] at hp; nomatch hp
  · rw [hentry] at he; nomatch he
  · rw [hopen, hgroup]; exact ⟨rfl, Nat.zero_le _⟩

/-- RESTART CALLS closes every context (R128). -/
theorem State.call_restartCalls (s : State) (j : Nat) : (s.restartCalls.context j).call = none := by
  refine Table.forall_get (P := fun _ c => Context.call c = none) (fun x hx => ?_) (fun _ => rfl) j
  simp only [State.restartCalls, Table.mapAll, List.mem_filter, List.mem_map] at hx
  obtain ⟨⟨y, -, rfl⟩, -⟩ := hx
  rfl

theorem State.inUse_restartCalls (s : State) (g : Nat) : (s.restartCalls.group g).inUse = 0 := by
  refine Table.forall_get (P := fun _ v => Group.inUse v = 0) (fun x hx => ?_) (fun _ => rfl) g
  simp only [State.restartCalls, Table.mapAll, List.mem_filter, List.mem_map] at hx
  obtain ⟨⟨y, -, rfl⟩, -⟩ := hx
  rfl

theorem State.CallLaws.restartCalls (h : s.CallLaws) : s.restartCalls.CallLaws := by
  have hposition (p : Nat) : s.restartCalls.position p = { s.position p with context := none } :=
    h.positions.get_mapAll (f := fun v => { v with context := none }) rfl p
  have hentry (e : Nat) : s.restartCalls.entry e = { s.entry e with context := none } :=
    h.entries.get_mapAll (f := fun v => { v with context := none }) rfl e
  refine .of_idle (h.positions.mapAll fun v => { v with context := none })
    (h.entries.mapAll fun v => { v with context := none }) (h.contexts.mapAll _) (fun p e hp => ?_) (fun e => ?_)
    s.call_restartCalls (fun p => ?_) (fun e => ?_) s.inUse_restartCalls
  · rw [hposition] at hp
    rw [hentry]
    exact h.owners p e hp
  · rw [hentry]; exact h.firsts e
  · rw [hposition]
  · rw [hentry]

theorem State.CallLaws.restartAll (h : s.CallLaws) : s.restartCalls.restartAdmissions.CallLaws := by
  have hclosed := h.restartCalls
  have hposition (p : Nat) : s.restartCalls.restartAdmissions.position p = (s.restartCalls.position p).restarted :=
    hclosed.positions.get_mapAll rfl p
  have hentry (e : Nat) : s.restartCalls.restartAdmissions.entry e = (s.restartCalls.entry e).restarted :=
    hclosed.entries.get_mapAll rfl e
  refine .of_idle (hclosed.positions.mapAll _) (hclosed.entries.mapAll _) hclosed.contexts (fun p e hp => ?_)
    (fun e => ?_) s.call_restartCalls (fun p => ?_) (fun e => ?_) s.inUse_restartCalls
  · rw [hposition] at hp; nomatch hp
  · rw [hentry]; exact fun _ => nofun
  · rw [hposition]; rfl
  · rw [hentry]; rfl

theorem State.CallLaws.reset (s : State) :
    State.CallLaws { State.reset with pending := s.pending, freeCount := s.freeCount } :=
  .of_idle ⟨0, rfl⟩ ⟨0, rfl⟩ ⟨0, rfl⟩ (fun _ _ => nofun) (fun _ _ => nofun) (fun _ => rfl) (fun _ => rfl) (fun _ => rfl)
    fun _ => rfl

/-! ### Every move -/

/-- No loop is requested at a position in a call (R49, R51). -/
theorem State.CallLaws.treat (h : s.CallLaws) (p : Nat) (treatment : Treatment) (tone : Nat)
    (hloop : treatment.isLoop = true → s.openContextAt p = none) :
    (s.setPosition p ((s.position p).treated treatment tone)).CallLaws := by
  refine h.setPosition p (h.owners p) rfl fun hin => ?_
  by_contra hlooped
  exact hin (State.context_of_openContextAt h (hloop (by simpa [Position.treated] using hlooped)))

theorem Move.keeps_callLaws (h : s.CallLaws) (hmove : Move s t) : t.CallLaws := by
  cases hmove with
  | elsewhere hsame => exact h.sameTables hsame
  | position p hv => exact h.keepPosition p hv
  | entry e hv => exact h.keepEntry e hv
  | group g hv => exact h.keepGroup g hv
  | context j hv => exact h.keepContext j hv
  | outside e hbefore hafter hcontext =>
    obtain ⟨hidle, hunowned⟩ := h.unhoused hbefore
    exact h.setIdleEntry hidle hunowned (hcontext.trans hidle) fun _ _ _ => hafter
  | treat p treatment tone hloop => exact h.treat p treatment tone hloop
  | openCall tag loop key hfree howner hloop hidle hbudget =>
    exact h.openContext tag loop key hfree howner hloop hidle hbudget
  | close j cause => exact h.closeContext j cause
  | endAdmission e cause hstate => exact h.endAdmission e cause hstate
  | endFrame cut => exact h.endFrame cut
  | restartCalls => exact h.restartCalls
  | restartAll => exact h.restartAll
  | reset => exact .reset s

theorem Moves.keeps_callLaws (h : Moves s t) (hs : s.CallLaws) : t.CallLaws :=
  h.keeps (fun _ _ => Move.keeps_callLaws) hs

/-! ### An entry that a MATCH may bind (R97, R99) -/

theorem State.Vacant.sameTables {e : Nat} (h : s.Vacant e) (ht : SameTables s t) : t.Vacant e := by
  have hposition : t.position = s.position := funext fun p => by rw [State.position, ht.positions]; rfl
  have hentry : t.entry = s.entry := funext fun f => by rw [State.entry, ht.entries]; rfl
  refine ⟨?_, ?_, ?_⟩
  · rw [hentry]; exact h.context
  · rw [hposition]; exact h.unowned
  · rw [hentry]; exact h.candidate

theorem State.Vacant.report {e : Nat} (h : s.Vacant e) (r : Report) : (s.report r).Vacant e := by
  rw [State.report_frame]
  exact h.sameTables ⟨rfl, rfl, rfl, rfl⟩

theorem State.Vacant.replyTo {e : Nat} (h : s.Vacant e) (p : Nat) (r : LineReply) : (s.replyTo p r).Vacant e :=
  h.sameTables ⟨rfl, rfl, rfl, rfl⟩

/-- A write of any entry that neither gives it a call nor a candidate. -/
theorem State.Vacant.setEntry {e : Nat} (h : s.Vacant e) (f : Nat) {v : Entry}
    (hcontext : (s.entry f).context = none → v.context = none)
    (hcandidate : (s.entry f).candidate = none → v.candidate = none) : (s.setEntry f v).Vacant e := by
  refine ⟨?_, h.unowned, ?_⟩
  · rw [State.entry_setEntry]
    split
    · next he => exact hcontext (he ▸ h.context)
    · exact h.context
  · rw [State.entry_setEntry]
    split
    · next he => exact hcandidate (he ▸ h.candidate)
    · exact h.candidate

/-- A write of a position that gives it no new owner. -/
theorem State.Vacant.setPosition {e : Nat} (h : s.Vacant e) (p : Nat) {v : Position}
    (howner : v.owner = some e → (s.position p).owner = some e) : (s.setPosition p v).Vacant e := by
  refine ⟨h.context, fun q => ?_, h.candidate⟩
  rw [State.position_setPosition]
  split
  · exact fun hq => h.unowned p (howner hq)
  · exact h.unowned q

theorem State.Vacant.dropCandidate {e : Nat} (h : s.Vacant e) (x : Nat) : (s.dropCandidate x).Vacant e := by
  unfold State.dropCandidate
  split
  · exact h
  · next c _ =>
    have hremoved : (s.removeCandidate x c.position).Vacant e :=
      (h.setEntry x (v := { s.entry x with candidate := none }) id fun _ => rfl).setPosition c.position id
    dsimp only
    split
    · exact hremoved
    · exact hremoved.sameTables ⟨rfl, rfl, rfl, rfl⟩

theorem State.Vacant.releaseContext {e : Nat} (h : s.Vacant e) (j : Nat) (call : Call) :
    (s.releaseContext j call).Vacant e := by
  refine ⟨?_, fun q => ?_, ?_⟩
  · rw [State.entry_releaseContext]
    split
    · rfl
    · exact h.context
  · rw [State.position_releaseContext]
    split
    · exact h.unowned call.position
    · exact h.unowned q
  · rw [State.entry_releaseContext]
    split
    · next he => exact he ▸ h.candidate
    · exact h.candidate

theorem State.Vacant.closeContextOf {e : Nat} (h : s.Vacant e) (x : Nat) (cause : CloseCause) :
    (s.closeContextOf x cause).Vacant e := by
  unfold State.closeContextOf State.closeContext
  split
  · exact h
  · split
    · exact h
    · exact (h.releaseContext _ _).report _

theorem State.Vacant.unbind {e : Nat} (h : s.Vacant e) (x : Nat) : (s.unbind x).Vacant e := by
  have hentry : (s.setEntry x { s.entry x with home := none, refresh := none, rechallenge := none }).Vacant e :=
    h.setEntry x id id
  unfold State.unbind
  dsimp only
  split
  · exact hentry
  · next p _ => exact hentry.setPosition p nofun

theorem State.Vacant.displaceOwner {e : Nat} (h : s.Vacant e) (p : Nat) : (s.displaceOwner p e).Vacant e := by
  unfold State.displaceOwner
  split
  · exact h
  · next x _ =>
    split
    · exact h
    · have hunbound := ((h.dropCandidate x).closeContextOf x .displaced).unbind x
      have hended : ((s.dropCandidate x).endAdmission x .displaced .absent).Vacant e := hunbound.setEntry x id id
      exact hended.report _

theorem State.candidate_closeContextOf (s : State) (x : Nat) (cause : CloseCause) (e : Nat) :
    ((s.closeContextOf x cause).entry e).candidate = (s.entry e).candidate := by
  unfold State.closeContextOf State.closeContext
  split
  · rfl
  · split
    · rfl
    · next call _ =>
      rw [State.report_frame]
      show ((s.releaseContext _ call).entry e).candidate = _
      rw [State.entry_releaseContext]
      split
      · next he => rw [he]
      · rfl

theorem State.candidate_unbind (s : State) (e : Nat) : ((s.unbind e).entry e).candidate = (s.entry e).candidate := by
  unfold State.unbind
  dsimp only
  split
  · rw [State.entry_setEntry_self]
  · rw [State.entry_setPosition, State.entry_setEntry_self]

/-- An entry that has left its home is in no call and owns no position (R99). -/
theorem State.CallLaws.leaveHome (h : s.CallLaws) {e : Nat} (p : Nat) (hcandidate : (s.entry e).candidate = none) :
    (s.leaveHome e p).CallLaws ∧ (s.leaveHome e p).Vacant e := by
  unfold State.leaveHome
  cases hhome : (s.entry e).home with
  | none =>
    obtain ⟨hidle, hunowned⟩ := h.unhoused (.inr hhome)
    exact ⟨h, hidle, hunowned, hcandidate⟩
  | some q =>
    obtain ⟨hclosed, hidle⟩ := h.closeContextOf e .moved
    obtain ⟨hunbound, hidle, hunowned⟩ := hclosed.unbind hidle
    have hcandidate' : (((s.closeContextOf e .moved).unbind e).entry e).candidate = none := by
      rw [State.candidate_unbind, State.candidate_closeContextOf, hcandidate]
    exact ⟨(((Moves.refl _).replyTo _ _).report _).keeps_callLaws hunbound,
      (State.Vacant.replyTo ⟨hidle, hunowned, hcandidate'⟩ _ _).report _⟩

theorem State.CallLaws.bind (h : s.CallLaws) {e : Nat} (hvacant : s.Vacant e) (p : Nat) : (s.bind e p).CallLaws := by
  have hadmitted : (s.setEntry e { s.entry e with state := .admitted, home := some p }).CallLaws :=
    h.setIdleEntry hvacant.context hvacant.unowned hvacant.context fun c hc => by
      rw [show ({ s.entry e with state := .admitted, home := some p } : Entry).candidate = none from
        hvacant.candidate] at hc
      nomatch hc
  refine hadmitted.setPosition p (fun f hf => ?_) rfl fun hin => h.unlooped p hin
  obtain rfl := Option.some.inj hf
  rw [State.entry_setEntry_self]
  exact ⟨rfl, rfl⟩

theorem State.CallLaws.bindAndWelcome (h : s.CallLaws) {e : Nat} (hvacant : s.Vacant e) (p : Nat) :
    (((s.displaceOwner p e).bind e p).welcome e p false).CallLaws :=
  ((Moves.refl _).welcome e p false).keeps_callLaws
    ((((Moves.refl s).displaceOwner p e).keeps_callLaws h).bind (hvacant.displaceOwner p) p)

theorem State.CallLaws.applyMatch (h : s.CallLaws) {e : Nat} (p : Nat) {kind : CandidateKind}
    (hcandidate : (s.entry e).candidate = none) (hfirst : kind = .first → (s.entry e).state ≠ .admitted) :
    (s.applyMatch e p kind).CallLaws := by
  cases kind with
  | first =>
    obtain ⟨hidle, hunowned⟩ := h.unhoused (.inl (hfirst rfl))
    exact h.bindAndWelcome ⟨hidle, hunowned, hcandidate⟩ p
  | move =>
    obtain ⟨hleft, hvacant⟩ := h.leaveHome p hcandidate
    exact hleft.bindAndWelcome hvacant p
  | renew => exact ((Moves.refl s).welcome e p true).keeps_callLaws h

theorem State.CallLaws.completeItem (h : s.CallLaws) (f : FlightItem) : (s.completeItem f).CallLaws := by
  unfold State.completeItem
  split
  · exact h
  · split
    · exact h
    · next c hc =>
      have hremoved := ((Moves.refl s).removeCandidate f.item.entry f.item.position).keeps_callLaws h
      have hentry : (s.removeCandidate f.item.entry f.item.position).entry f.item.entry =
          { s.entry f.item.entry with candidate := none } := by
        rw [State.removeCandidate, State.entry_setPosition, State.entry_setEntry_self]
      have hfirst : c.kind = .first →
          ((s.removeCandidate f.item.entry f.item.position).entry f.item.entry).state ≠ .admitted := by
        rw [hentry]
        exact h.firsts f.item.entry c hc
      cases f.verdict with
      | matched => exact hremoved.applyMatch _ (by rw [hentry]) hfirst
      | mismatch => exact ((Moves.refl _).applyMismatch _ hfirst).keeps_callLaws hremoved
      | notReady => exact ((Moves.refl _).applyNotReady _ _ _).keeps_callLaws hremoved

theorem step_callLaws (h : step s = .next t) (hs : s.CallLaws) : t.CallLaws :=
  (step_course h).keeps (fun _ _ => Move.keeps_callLaws) (fun _ f h => h.completeItem f) hs

/-- Settles O59: the tables that agree satisfy the laws of calls, which a step keeps and which give both halves back. -/
theorem everyStepKeepsCalls : Obligations.EveryStepKeepsCalls :=
  ⟨fun _ _ hwf hagrees hstep => (step_callLaws hstep (.of_agrees hwf hagrees)).callsAgree,
    fun _ _ hwf hagrees hstep => (step_callLaws hstep (.of_agrees hwf hagrees)).budgets⟩

end Sys2Proof.Machine
end

section
/-! The management cells of positions and the index check of every cell (R37, R49, R50, R117, R118, R165): each is read
off the effect of its cell, since a cell in a frame acts at once. -/

namespace Sys2Proof.Machine

variable {s : State}

/-! ### Refusals -/

/-- A cell whose effect is a refusal is answered with it, and nothing else changes (R164, R165). -/
theorem State.managementCell_refuses (h : s.inFrame) (effect : State → State) {tag : Byte} {kind : Nat}
    {reason : Reason} (he : effect s = s.refuse tag kind reason) :
    s.managementCell effect = .next (s.refused tag kind reason) := by
  rw [State.managementCell_inFrame h, he]
  rfl

/-- Settles O27: the effect of each cell begins with the check of its index. -/
theorem badIndexIsRefusedFirst : Obligations.BadIndexIsRefusedFirst := by
  intro tag s hframe
  have hrefuses (effect : State → State) {kind : Nat} (he : effect s = s.refuse tag kind .badIndex) :=
    State.managementCell_refuses hframe effect he
  refine ⟨fun e he => ⟨fun group identity => ?_, ?_, fun half a b => ?_, ?_, ?_, ?_⟩,
    fun g hg => ⟨fun budget limit => ?_, fun refresh rechallenge => ?_⟩,
    fun j hj => ⟨fun half a b => ?_, fun position flag => ?_, ?_⟩,
    fun p hp => ⟨fun treatment tone => ?_, fun direction gain => ?_⟩, fun a c0 c1 c2 c3 ha => ?_,
    fun c hc => ⟨fun repeats mode start length => ?_, ?_⟩⟩
  · exact hrefuses (fun v => v.loadExtension tag e group identity) (if_pos he)
  · exact hrefuses (fun v => v.unloadExtension tag e) (if_pos he)
  · exact hrefuses (fun v => v.secretHalf tag half e a b) (if_pos he)
  · exact hrefuses (fun v => v.forceSignOff tag e) (if_pos he)
  · exact hrefuses (fun v => v.barEntry tag e) (if_pos he)
  · exact hrefuses (fun v => v.unbarEntry tag e) (if_pos he)
  · exact hrefuses (fun v => v.setGroupLimits tag g budget limit) (if_pos hg)
  · exact hrefuses (fun v => v.setGroupTimes tag g refresh rechallenge) (if_pos hg)
  · exact hrefuses (fun v => v.stagedHalf tag half j a b) (if_pos hj)
  · exact hrefuses (fun v => v.openCall tag j position flag) (if_pos hj)
  · exact hrefuses (fun v => v.closeCall tag j) (if_pos hj)
  · exact hrefuses (fun v => v.setPositionTreatment tag p treatment tone) (if_pos hp)
  · exact hrefuses (fun v => v.setPositionGain tag p direction gain) (if_pos hp)
  · exact hrefuses (fun v => v.loadPattern tag a c0 c1 c2 c3) (if_pos ha)
  · exact hrefuses (fun v => v.setPlayout tag c repeats mode start length) (if_pos hc)
  · exact hrefuses (fun v => v.stopPlayout tag c) (if_pos hc)

/-! ### OPEN CALL (R117, R118) -/

/-- A position names no OPEN context exactly if no call is found at it (R38, R117). -/
theorem State.openContextAt_eq_none_iff (s : State) (p : Nat) : s.openContextAt p = none ↔ s.noCallAt p := by
  unfold State.openContextAt State.noCallAt
  cases (s.position p).context with
  | none => simp
  | some j => cases hcall : (s.context j).call <;> simp [Context.isOpen, hcall]

theorem loopOfCode_of_le {flag : Nat} (h : flag ≤ 1) : loopOfCode flag = some (decide (flag = 1)) := by
  obtain rfl | rfl : flag = 0 ∨ flag = 1 := by omega
  · rfl
  · rfl

theorem Context.freshKey_of_staged {c : Context} {key : Key} (h : c.staged = some ⟨key, false, false⟩) :
    c.freshKey = some key := by
  rw [Context.freshKey, h]; rfl

/-- An OPEN CALL that passes the ten checks opens the context (R117). -/
theorem State.openCall_of_checks (tag : Byte) {j p e flag : Nat} {key : Key} (hj : j ≤ 255)
    (hfree : (s.context j).call = none) (hp : p ≤ 479) (hflag : flag ≤ 1) (howner : (s.position p).owner = some e)
    (hloop : (s.position p).requested.isLoop = false) (hidle : s.noCallAt p)
    (hstaged : (s.context j).staged = some ⟨key, false, false⟩) (hbudget : (s.groupOf e).inUse < (s.groupOf e).budget) :
    s.openCall tag j p flag = s.openContext tag j p e (decide (flag = 1)) key := by
  have hclosed : (s.context j).isOpen = false := by rw [Context.isOpen, hfree]; rfl
  have hnone := (s.openContextAt_eq_none_iff p).2 hidle
  have hfresh := Context.freshKey_of_staged hstaged
  simp [State.openCall, State.openCallAt, Nat.not_lt.2 hj, Nat.not_lt.2 hp, hclosed, loopOfCode_of_le hflag, howner,
    hloop, hnone, hfresh, Nat.not_le.2 hbudget]

/-- Settles O34: the checks pass, and what the open writes is what the statement lists. -/
theorem openCallOpensContext : Obligations.OpenCallOpensContext := by
  intro tag j p e flag key s hframe hj hfree hp hflag howner hloop hidle hstaged hbudget
  have hcell := State.managementCell_inFrame hframe fun v => v.openCall tag j p flag
  rw [State.openCall_of_checks tag hj hfree hp hflag howner hloop hidle hstaged hbudget] at hcell
  exact hcell

/-! ### SET POSITION TREATMENT (R49) -/

theorem treatmentOfCode_none {code : Nat} (h : 4 < code) : treatmentOfCode code = none := by
  unfold treatmentOfCode
  split
  case h_6 => rfl
  all_goals omega

theorem treatmentOfCode_code (treatment : Treatment) : treatmentOfCode treatment.code = some treatment := by
  cases treatment <;> rfl

theorem Treatment.exists_code {code : Nat} (h : code ≤ 4) : ∃ treatment : Treatment, treatment.code = code := by
  obtain rfl | rfl | rfl | rfl | rfl : code = 0 ∨ code = 1 ∨ code = 2 ∨ code = 3 ∨ code = 4 := by omega
  · exact ⟨.clear, rfl⟩
  · exact ⟨.mute, rfl⟩
  · exact ⟨.tone, rfl⟩
  · exact ⟨.lineLoop, rfl⟩
  · exact ⟨.switchLoop, rfl⟩

/-- The loops are the treatments of codes 3 and 4 (R174). -/
theorem Treatment.isLoop_eq (treatment : Treatment) : treatment.isLoop = decide (3 ≤ treatment.code) := by
  cases treatment <;> rfl

theorem Treatment.ne_switchLoop_iff (treatment : Treatment) : treatment ≠ .switchLoop ↔ treatment.code ≠ 4 := by
  cases treatment <;> decide

/-- SET POSITION TREATMENT of a position of the part, by the checks that are left (R49). -/
theorem State.setPositionTreatment_of_code (s : State) (tag : Byte) {p tone : Nat} (treatment : Treatment)
    (hp : p ≤ 479) (htone : tone ≤ 15) :
    s.setPositionTreatment tag p treatment.code tone =
      if treatment.isLoop && (s.openContextAt p).isSome then s.refuse tag 12 .inCall
      else (s.accept tag (.setPositionTreatment p)).setPosition p ((s.position p).treated treatment tone) := by
  rw [State.setPositionTreatment, if_neg (Nat.not_lt.2 hp), treatmentOfCode_code]
  exact if_neg (Nat.not_lt.2 htone)

theorem State.setPositionTreatment_badValue (s : State) (tag : Byte) {p code tone : Nat} (hp : p ≤ 479)
    (h : 4 < code ∨ 15 < tone) : s.setPositionTreatment tag p code tone = s.refuse tag 12 .badValue := by
  rw [State.setPositionTreatment, if_neg (Nat.not_lt.2 hp)]
  by_cases hcode : 4 < code
  · rw [treatmentOfCode_none hcode]
  · have htone := h.resolve_left hcode
    cases treatmentOfCode code with
    | none => rfl
    | some treatment => exact if_pos htone

/-- SET POSITION TREATMENT is checked in order and written (R36, R49). -/
theorem State.setPositionTreatment_spec (s : State) (tag : Byte) {p tone : Nat} (treatment : Treatment) (hp : p ≤ 479)
    (htone : tone ≤ 15) :
    (3 ≤ treatment.code → ¬ s.noCallAt p →
      s.setPositionTreatment tag p treatment.code tone = s.refuse tag 12 .inCall) ∧
      (treatment.code ≤ 2 ∨ s.noCallAt p →
        s.setPositionTreatment tag p treatment.code tone =
          (s.accept tag (.setPositionTreatment p)).setPosition p ((s.position p).treated treatment tone)) := by
  rw [s.setPositionTreatment_of_code tag treatment hp htone, treatment.isLoop_eq]
  refine ⟨fun hloop hcall => ?_, fun hfree => ?_⟩
  · have hsome : (s.openContextAt p).isSome = true := by
      rw [Option.isSome_iff_ne_none, Ne, s.openContextAt_eq_none_iff]; exact hcall
    rw [decide_eq_true hloop, hsome]; rfl
  · rcases hfree with hcode | hcall
    · rw [decide_eq_false (by omega)]; rfl
    · rw [(s.openContextAt_eq_none_iff p).2 hcall, Option.isSome_none, Bool.and_false]; rfl

/-! ### SET POSITION GAIN (R50) -/

theorem directionOfCode_none {code : Nat} (h : code = 0 ∨ 3 < code) : directionOfCode code = none := by
  unfold directionOfCode
  split
  case h_4 => rfl
  all_goals omega

theorem State.setPositionGain_of_code (s : State) (tag : Byte) {p gain : Nat} (value : Nat) (direction : Direction)
    (hp : p ≤ 479) (hgain : min 512 value = gain) :
    s.setPositionGain tag p direction.code value =
      (s.accept tag (.setPositionGain p direction gain)).setPosition p ((s.position p).gained direction gain) := by
  subst hgain
  rw [State.setPositionGain, if_neg (Nat.not_lt.2 hp)]
  cases direction <;> rfl

theorem State.setPositionGain_badValue (s : State) (tag : Byte) {p code : Nat} (value : Nat) (hp : p ≤ 479)
    (h : code = 0 ∨ 3 < code) : s.setPositionGain tag p code value = s.refuse tag 13 .badValue := by
  rw [State.setPositionGain, if_neg (Nat.not_lt.2 hp), directionOfCode_none h]

/-! ### The commands -/

theorem exec_setPositionTreatment (h : s.inFrame) (tag : Byte) (p code tone : Nat) :
    exec (.setPositionTreatment tag p code tone) s = .next (s.setPositionTreatment tag p code tone) :=
  State.managementCell_inFrame h fun v => v.setPositionTreatment tag p code tone

theorem exec_setPositionGain (h : s.inFrame) (tag : Byte) (p code value : Nat) :
    exec (.setPositionGain tag p code value) s = .next (s.setPositionGain tag p code value) :=
  State.managementCell_inFrame h fun v => v.setPositionGain tag p code value

/-- Settles O43: each clause is the case of its checks in the cell's own equation. -/
theorem positionCellsAreWritten : Obligations.PositionCellsAreWritten := by
  refine ⟨fun tag p code tone s hframe hp => ⟨fun hbad => ?_, fun hge hle htone hcall => ?_,
    fun treatment hcode htone hfree => ?_⟩, fun tag p code value gain s hframe hsmall hlarge => ?_⟩
  · rw [exec_setPositionTreatment hframe, s.setPositionTreatment_badValue tag hp hbad]
    rfl
  · obtain ⟨treatment, rfl⟩ := Treatment.exists_code hle
    rw [exec_setPositionTreatment hframe, (s.setPositionTreatment_spec tag treatment hp htone).1 hge hcall]
    rfl
  · have hcode : code = treatment.code := by cases treatment <;> simpa [Treatment.code] using hcode
    subst hcode
    rw [exec_setPositionTreatment hframe, (s.setPositionTreatment_spec tag treatment hp htone).2 hfree]
    simp only [Position.treated, treatment.ne_switchLoop_iff]
    rfl
  · have hgain : min 512 value = gain := by omega
    have hwritten (direction : Direction) (hp : p ≤ 479) :
        exec (.setPositionGain tag p direction.code value) s =
          .next ((s.accepted tag (.setPositionGain p direction gain)).setPosition p
            ((s.position p).gained direction gain)) := by
      rw [exec_setPositionGain hframe, s.setPositionGain_of_code tag value direction hp hgain]
      rfl
    refine ⟨fun hp => State.managementCell_refuses hframe (fun v => v.setPositionGain tag p code value) (if_pos hp),
      fun hp hbad => ?_, fun hp hcode => ?_, fun hp hcode => ?_, fun hp hcode => ?_⟩
    · rw [exec_setPositionGain hframe, s.setPositionGain_badValue tag value hp hbad]
      rfl
    · subst hcode; exact hwritten .up hp
    · subst hcode; exact hwritten .down hp
    · subst hcode; exact hwritten .both hp

end Sys2Proof.Machine
end
section
/-! The laws of admissions, candidates, verification items and identities (R54, R55, R63, R75, R92, R95, R112), in the form
that every operation keeps: what an entry's own fields say of one another is asked of every entry but those in hand,
which an operation has taken from one lawful state and not yet brought to the next. -/

namespace Sys2Proof.Machine

variable {s t : State} {A B : Set Nat}

/-! ### One entry -/

/-- What an entry's own fields say of one another: a home and deadlines as its state allows, and a candidate of a kind
that its state allows (R54, R63, R82, R112). -/
structure Entry.Sound (e : Entry) : Prop where
  home : e.home ≠ none ↔ e.state = .admitted
  deadlines : e.state ≠ .admitted → e.refresh = none ∧ e.rechallenge = none
  halted : e.state = .admitted → (e.refresh = none ↔ e.renewing)
  kinds : ∀ c, e.candidate = some c → e.kindAgrees c

theorem Entry.not_renewing {e : Entry} (h : e.candidate = none) : ¬ e.renewing := by
  rintro ⟨c, hc, -⟩
  rw [h] at hc; nomatch hc

/-- An entry outside an admission that holds nothing of one. -/
theorem Entry.Sound.outside {e : Entry} (hstate : e.state ≠ .admitted) (hhome : e.home = none)
    (hcandidate : e.candidate = none) (hrefresh : e.refresh = none) (hrechallenge : e.rechallenge = none) : e.Sound :=
  ⟨⟨fun h => absurd hhome h, fun h => absurd h hstate⟩, fun _ => ⟨hrefresh, hrechallenge⟩, fun h => absurd h hstate,
    fun c hc => by rw [hcandidate] at hc; nomatch hc⟩

/-- An entry in an admission with a refresh deadline and no candidate. -/
theorem Entry.Sound.inside {e : Entry} (hstate : e.state = .admitted) (hhome : e.home ≠ none)
    (hcandidate : e.candidate = none) (hrefresh : e.refresh ≠ none) : e.Sound :=
  ⟨⟨fun _ => hstate, fun _ => hhome⟩, fun h => absurd hstate h,
    fun _ => ⟨fun h => absurd h hrefresh, fun h => absurd h (Entry.not_renewing hcandidate)⟩,
    fun c hc => by rw [hcandidate] at hc; nomatch hc⟩

theorem Entry.sound_reset : ({} : Entry).Sound := .outside nofun rfl rfl rfl rfl

/-- Outside an admission there is no home (R54). -/
theorem Entry.Sound.home_none {e : Entry} (h : e.Sound) (hstate : e.state ≠ .admitted) : e.home = none := by
  by_contra hhome
  exact hstate (h.home.1 hhome)

theorem Entry.Sound.state_of_home {e : Entry} (h : e.Sound) {p : Nat} (hhome : e.home = some p) :
    e.state = .admitted := h.home.1 (by rw [hhome]; nofun)

theorem Entry.loaded_of_admitted {e : Entry} (h : e.state = .admitted) : e.loaded = true := by simp [Entry.loaded, h]

/-- Without its candidate, an entry is sound unless the candidate was a RENEW, which halted the refresh deadline (R82). -/
theorem Entry.Sound.withoutCandidate {e : Entry} (h : e.Sound) (hkind : ¬ e.renewing) :
    ({ e with candidate := none } : Entry).Sound :=
  ⟨h.home, h.deadlines, fun hstate => ⟨fun hrefresh => absurd ((h.halted hstate).1 hrefresh) hkind,
    fun hrenewing => absurd hrenewing (Entry.not_renewing rfl)⟩, nofun⟩

/-! ### Verification items (R92, R95) -/

/-- Fewer live items, whose entries hold the candidates they held, agree as before. -/
theorem State.itemsAgree.fewer (h : s.itemsAgree) (hitems : t.liveItems.Subperm s.liveItems)
    (hcandidate : ∀ i ∈ t.liveItems, (t.entry i.entry).candidate = (s.entry i.entry).candidate) : t.itemsAgree := by
  refine ⟨fun i hi => ?_, ?_⟩
  · rw [State.itemHasCandidate, hcandidate i hi]
    exact h.1 i (hitems.subset hi)
  · obtain ⟨l, hperm, hsub⟩ := hitems
    exact (hperm.map _).nodup_iff.1 ((hsub.map _).nodup h.2)

/-- The items wait in the Verification Queue, in flight and at their completion; the order is no matter. -/
theorem State.liveItems_subperm (h : t.items.Subperm s.items) : t.liveItems.Subperm s.liveItems := h.filter _

/-- Voiding an entry's items leaves those of the other entries live (R95). -/
theorem State.liveItems_voidItems (s : State) (e : Nat) :
    (s.voidItems e).liveItems = s.liveItems.filter fun i => decide (i.entry ≠ e) := by
  have hitems : (s.voidItems e).items = s.items.map (voidItem e) := by
    simp [State.items, State.voidItems, List.map_append, Function.comp_def]
  have hlive (l : List VerifyItem) : (l.map (voidItem e)).filter (fun i => !i.isVoid) =
      (l.filter fun i => !i.isVoid).filter fun i => decide (i.entry ≠ e) := by
    induction l with
    | nil => rfl
    | cons i l ih =>
      by_cases he : i.entry = e <;> cases hv : i.isVoid <;> simp [voidItem, he, hv] at ih ⊢ <;> exact ih
  rw [State.liveItems, hitems, hlive]
  rfl

/-- An entry whose candidate is not QUEUED, or that holds none, has no live item (R92). -/
theorem State.itemsAgree.idle (h : s.itemsAgree) {e : Nat}
    (hstage : ∀ c, (s.entry e).candidate = some c → c.stage ≠ .queued) : ∀ i ∈ s.liveItems, i.entry ≠ e := by
  rintro i hi rfl
  have hi := h.1 i hi
  rw [State.itemHasCandidate, Option.map_eq_some_iff] at hi
  obtain ⟨c, hc, heq⟩ := hi
  simp only [Prod.mk.injEq] at heq
  exact hstage c hc heq.2.2

/-! ### Owners and homes, pending entries and candidates -/

/-- Two tables name each other: `p` names `e` exactly if `e` names `p`. -/
def Linked (f g : Nat → Option Nat) : Prop := ∀ p e, f p = some e ↔ g e = some p

/-- What names each other may be taken apart at both ends. -/
theorem Linked.cut {f g : Nat → Option Nat} (h : Linked f g) {p e : Nat} (hp : g e = some p) :
    Linked (Function.update f p none) (Function.update g e none) := by
  intro q x
  have hback : f p = some e := (h p e).2 hp
  have hqx := h q x
  by_cases hq : q = p <;> by_cases hx : x = e
  · simp [hq, hx]
  · subst hq
    have hne : g x ≠ some q := fun hgx => hx (Option.some.inj (((h q x).2 hgx).symm.trans hback))
    simp [hx, hne]
  · subst hx
    have hne : f q ≠ some x := fun hfq => hq (Option.some.inj ((hqx.1 hfq).symm.trans hp))
    simp [hq, hne]
  · simpa [hq, hx] using hqx

/-- What names nothing may be joined. -/
theorem Linked.join {f g : Nat → Option Nat} (h : Linked f g) {p e : Nat} (hp : f p = none) (he : g e = none) :
    Linked (Function.update f p (some e)) (Function.update g e (some p)) := by
  intro q x
  have hqx := h q x
  by_cases hq : q = p <;> by_cases hx : x = e
  · simp [hq, hx]
  · subst hq
    have hne : g x ≠ some q := fun hgx => nomatch hp.symm.trans ((h q x).2 hgx)
    simp [hx, Ne.symm hx, hne]
  · subst hx
    have hne : f q ≠ some x := fun hfq => nomatch he.symm.trans (hqx.1 hfq)
    simp [hq, Ne.symm hq, hne]
  · simpa [hq, hx] using hqx

/-- The owner of each position. -/
def State.ownerOf (s : State) (p : Nat) : Option Nat := (s.position p).owner
/-- The pending entry of each position. -/
def State.pendingOf (s : State) (p : Nat) : Option Nat := (s.position p).pending
/-- The home of each entry. -/
def State.homeOf (s : State) (e : Nat) : Option Nat := (s.entry e).home
/-- The position of each entry's candidate. -/
def State.candidateOf (s : State) (e : Nat) : Option Nat := (s.entry e).candidate.map Candidate.position

theorem State.ownerOf_setPosition (s : State) (p : Nat) (w : Position) :
    (s.setPosition p w).ownerOf = Function.update s.ownerOf p w.owner := by
  funext q
  rw [State.ownerOf, State.position_setPosition, Function.update_apply, apply_ite Position.owner]
  rfl

theorem State.pendingOf_setPosition (s : State) (p : Nat) (w : Position) :
    (s.setPosition p w).pendingOf = Function.update s.pendingOf p w.pending := by
  funext q
  rw [State.pendingOf, State.position_setPosition, Function.update_apply, apply_ite Position.pending]
  rfl

theorem State.homeOf_setEntry (s : State) (e : Nat) (v : Entry) :
    (s.setEntry e v).homeOf = Function.update s.homeOf e v.home := by
  funext f
  rw [State.homeOf, State.entry_setEntry, Function.update_apply, apply_ite Entry.home]
  rfl

theorem State.candidateOf_setEntry (s : State) (e : Nat) (v : Entry) :
    (s.setEntry e v).candidateOf = Function.update s.candidateOf e (v.candidate.map Candidate.position) := by
  funext f
  rw [State.candidateOf, State.entry_setEntry, Function.update_apply, apply_ite Entry.candidate,
    apply_ite (Option.map Candidate.position)]
  rfl

/-! ### Identities (R55) -/

/-- Under its index an entry takes no identity that another loaded entry holds (R55). -/
theorem State.identitiesUnique.setEntry (h : s.identitiesUnique) (e : Nat) {v : Entry}
    (hname : v.loaded = true → ∀ f, f ≠ e → (s.entry f).loaded = true → v.identity ≠ (s.entry f).identity) :
    (s.setEntry e v).identitiesUnique := by
  intro f g hf hg hsame
  rw [State.entry_setEntry] at hf hg hsame
  rw [State.entry_setEntry] at hsame
  by_cases hfe : f = e <;> by_cases hge : g = e
  · rw [hfe, hge]
  · rw [if_pos hfe] at hf hsame
    rw [if_neg hge] at hg hsame
    exact absurd hsame (hname hf g hge hg)
  · rw [if_neg hfe] at hf hsame
    rw [if_pos hge] at hg hsame
    exact absurd hsame.symm (hname hg f hfe hf)
  · rw [if_neg hfe] at hf hsame
    rw [if_neg hge] at hg hsame
    exact h f g hf hg hsame

/-- An entry is known by its identity while it is loaded: the second record is loaded only if the first is, and then
with the same identity. -/
def Entry.SameName (a b : Entry) : Prop := b.loaded = true → a.loaded = true ∧ b.identity = a.identity

/-- An entry that keeps its name takes none that another holds. -/
theorem State.identitiesUnique.fresh (h : s.identitiesUnique) {e : Nat} {v : Entry} (hv : (s.entry e).SameName v)
    (hloaded : v.loaded = true) (f : Nat) (hf : f ≠ e) (hf' : (s.entry f).loaded = true) :
    v.identity ≠ (s.entry f).identity := by
  obtain ⟨he, hid⟩ := hv hloaded
  exact fun hsame => hf (h e f he hf' (hid.symm.trans hsame)).symm

/-! ### The laws -/

/-- The laws of admissions, candidates, items and identities, with every entry outside `A` sound. -/
structure State.Roster (s : State) (A : Set Nat) : Prop where
  positions : Table.Canonical {} s.positions
  entries : Table.Canonical {} s.entries
  sound : ∀ e, e ∉ A → (s.entry e).Sound
  owners : Linked s.ownerOf s.homeOf
  pendings : Linked s.pendingOf s.candidateOf
  items : s.itemsAgree
  identities : s.identitiesUnique

theorem State.Roster.of_agrees (hwf : s.wf = true) (h : s.agrees) : s.Roster ∅ := by
  obtain ⟨⟨howners, hhomes⟩, hdeadlines, ⟨hpendings, hkinds⟩, -, -, hitems, hidentities⟩ := h
  obtain ⟨hpositions, hentries, -⟩ := State.restartTables_wf hwf
  refine ⟨⟨_, hpositions⟩, ⟨_, hentries⟩,
    fun e _ => ⟨hhomes e, (hdeadlines e).1, (hdeadlines e).2, hkinds e⟩, fun p e => ?_, fun p e => ?_, hitems, hidentities⟩
  · rw [State.ownerOf, howners p e]
    exact ⟨And.right, fun hhome => ⟨(hhomes e).1 (Option.ne_none_iff_exists'.2 ⟨p, hhome⟩), hhome⟩⟩
  · rw [State.pendingOf, State.candidateOf, hpendings p e, Option.map_eq_some_iff]

theorem State.Roster.homesAgree (h : s.Roster ∅) : s.homesAgree := by
  refine ⟨fun p e => (h.owners p e).trans ?_, fun e => (h.sound e (Set.notMem_empty e)).home⟩
  exact ⟨fun hhome => ⟨(h.sound e (Set.notMem_empty e)).state_of_home hhome, hhome⟩, And.right⟩

theorem State.Roster.deadlinesAgree (h : s.Roster ∅) : s.deadlinesAgree := fun e =>
  ⟨(h.sound e (Set.notMem_empty e)).deadlines, (h.sound e (Set.notMem_empty e)).halted⟩

theorem State.Roster.candidatesAgree (h : s.Roster ∅) : s.candidatesAgree :=
  ⟨fun p e => (h.pendings p e).trans Option.map_eq_some_iff, fun e => (h.sound e (Set.notMem_empty e)).kinds⟩

theorem State.Roster.mono (h : s.Roster A) (hAB : A ⊆ B) : s.Roster B :=
  { h with sound := fun e he => h.sound e fun hA => he (hAB hA) }

/-- An entry in hand that is sound again may be laid down. -/
theorem State.Roster.mend {e : Nat} (h : s.Roster (insert e A)) (hsound : (s.entry e).Sound) : s.Roster A := by
  refine { h with sound := fun f hf => ?_ }
  by_cases hfe : f = e
  · exact hfe ▸ hsound
  · exact h.sound f fun hin => hin.elim hfe hf

/-- A state in which no position is tied to an entry, and no item is live. -/
theorem State.Roster.of_vacant (hpositions : Table.Canonical {} s.positions) (hentries : Table.Canonical {} s.entries)
    (hposition : ∀ p, (s.position p).owner = none ∧ (s.position p).pending = none)
    (hentry : ∀ e, (s.entry e).Sound ∧ (s.entry e).home = none ∧ (s.entry e).candidate = none)
    (hitems : s.liveItems = []) (hidentities : s.identitiesUnique) : s.Roster A := by
  refine ⟨hpositions, hentries, fun e _ => (hentry e).1, fun p e => ?_, fun p e => ?_, ⟨?_, ?_⟩, hidentities⟩
  · rw [State.ownerOf, State.homeOf, (hposition p).1, (hentry e).2.1]; exact ⟨nofun, nofun⟩
  · rw [State.pendingOf, State.candidateOf, (hposition p).2, (hentry e).2.2]; exact ⟨nofun, nofun⟩
  · rw [hitems]; exact List.forall_mem_nil _
  · rw [hitems]; exact List.nodup_nil

/-! ### What leaves the laws alone -/

/-- An operation after which positions and entries read as before, but for an entry's context and what of a position the
laws do not read, and which adds no item. -/
theorem State.Roster.reread (h : s.Roster A) (hpositions : Table.Canonical {} t.positions)
    (hentries : Table.Canonical {} t.entries)
    (hposition : ∀ p, (t.position p).owner = (s.position p).owner ∧ (t.position p).pending = (s.position p).pending)
    (hentry : ∀ e, ∃ j, t.entry e = { s.entry e with context := j }) (hitems : t.liveItems.Subperm s.liveItems) :
    t.Roster A := by
  have hread {β : Type} (field : Entry → β) (hfield : ∀ v j, field { v with context := j } = field v) (e : Nat) :
      field (t.entry e) = field (s.entry e) := by
    obtain ⟨j, hj⟩ := hentry e
    rw [hj, hfield]
  have howner : t.ownerOf = s.ownerOf := funext fun p => (hposition p).1
  have hpending : t.pendingOf = s.pendingOf := funext fun p => (hposition p).2
  have hhome : t.homeOf = s.homeOf := funext (hread Entry.home fun _ _ => rfl)
  have hcandidate : t.candidateOf = s.candidateOf :=
    funext (hread (fun v => v.candidate.map Candidate.position) fun _ _ => rfl)
  refine ⟨hpositions, hentries, fun e he => ?_, howner ▸ hhome ▸ h.owners, hpending ▸ hcandidate ▸ h.pendings,
    h.items.fewer hitems fun i _ => hread Entry.candidate (fun _ _ => rfl) _, fun e f he hf hsame => ?_⟩
  · obtain ⟨j, hj⟩ := hentry e
    have hold := h.sound e he
    rw [hj]
    exact ⟨hold.home, hold.deadlines, hold.halted, hold.kinds⟩
  · rw [hread Entry.loaded fun _ _ => rfl] at he hf
    rw [hread Entry.identity fun _ _ => rfl, hread Entry.identity fun _ _ => rfl] at hsame
    exact h.identities e f he hf hsame

/-- An operation that leaves positions and entries, and adds no item. -/
theorem State.Roster.fewerItems (h : s.Roster A) (hitems : t.liveItems.Subperm s.liveItems)
    (hpositions : t.positions = s.positions) (hentries : t.entries = s.entries) : t.Roster A := by
  have hposition (p : Nat) : t.position p = s.position p := by rw [State.position, hpositions]; rfl
  have hentry (e : Nat) : t.entry e = s.entry e := by rw [State.entry, hentries]; rfl
  exact h.reread (hpositions ▸ h.positions) (hentries ▸ h.entries) (fun p => by rw [hposition]; exact ⟨rfl, rfl⟩)
    (fun e => ⟨_, hentry e⟩) hitems

/-- What the laws read of a state. -/
def State.roster (s : State) : Table Position × Table Entry × List VerifyItem × List FlightItem × List FlightItem :=
  (s.positions, s.entries, s.verifyQueue, s.inFlight, s.completing)

/-- An operation outside the positions, the entries and the items. -/
theorem State.Roster.elsewhere (h : s.Roster A) (hkept : t.roster = s.roster) : t.Roster A := by
  simp only [State.roster, Prod.mk.injEq] at hkept
  obtain ⟨hpositions, hentries, hqueue, hflight, hcompleting⟩ := hkept
  refine h.fewerItems ?_ hpositions hentries
  rw [State.liveItems, State.liveItems, State.items, State.items, hqueue, hflight, hcompleting]

/-! ### Writes of an entry and a position -/

/-- Records with the owner and the home of those before leave the owners tied to the homes. -/
theorem State.Roster.ownersKept (h : s.Roster A) {e p : Nat} {v : Entry} {w : Position}
    (hw : w.owner = (s.position p).owner) (hv : v.home = (s.entry e).home) :
    Linked (Function.update s.ownerOf p w.owner) (Function.update s.homeOf e v.home) := by
  rw [show w.owner = s.ownerOf p from hw, show v.home = s.homeOf e from hv, Function.update_eq_self,
    Function.update_eq_self]
  exact h.owners

/-- Records with the pending entry and the candidate of those before leave the pending entries tied to the candidates. -/
theorem State.Roster.pendingsKept (h : s.Roster A) {e p : Nat} {v : Entry} {w : Position}
    (hw : w.pending = (s.position p).pending) (hv : v.candidate = (s.entry e).candidate) :
    Linked (Function.update s.pendingOf p w.pending)
      (Function.update s.candidateOf e (v.candidate.map Candidate.position)) := by
  rw [hv, show w.pending = s.pendingOf p from hw,
    show (s.entry e).candidate.map Candidate.position = s.candidateOf e from rfl, Function.update_eq_self,
    Function.update_eq_self]
  exact h.pendings

/-- An entry and the position it is tied to, written together: the ties are checked of what is written. -/
theorem State.Roster.write (h : s.Roster A) {e p : Nat} {v : Entry} {w : Position}
    (howners : Linked (Function.update s.ownerOf p w.owner) (Function.update s.homeOf e v.home))
    (hpendings : Linked (Function.update s.pendingOf p w.pending)
      (Function.update s.candidateOf e (v.candidate.map Candidate.position)))
    (hitems : v.candidate = (s.entry e).candidate ∨ ∀ i ∈ s.liveItems, i.entry ≠ e)
    (hname : v.loaded = true → ∀ f, f ≠ e → (s.entry f).loaded = true → v.identity ≠ (s.entry f).identity) :
    ((s.setEntry e v).setPosition p w).Roster (insert e A) := by
  refine ⟨h.positions.set p w, h.entries.set e v, fun f hf => ?_, ?_, ?_, h.items.fewer (List.Subperm.refl _) ?_,
    h.identities.setEntry e hname⟩
  · have hf : f ≠ e ∧ f ∉ A := by simpa using hf
    rw [State.entry_setPosition, State.entry_setEntry_other _ _ hf.1]
    exact h.sound f hf.2
  · rw [State.ownerOf_setPosition]
    exact (s.homeOf_setEntry e v).symm ▸ howners
  · rw [State.pendingOf_setPosition]
    exact (s.candidateOf_setEntry e v).symm ▸ hpendings
  · intro i hi
    rw [State.entry_setPosition, State.entry_setEntry]
    split
    · next hie => exact (hitems.resolve_right fun hidle => hidle i hi hie).trans (by rw [hie])
    · rfl

/-- An entry's record with the same home and the candidate at the same position. -/
theorem State.Roster.restage (h : s.Roster A) (e : Nat) {v : Entry} (hhome : v.home = (s.entry e).home)
    (hposition : v.candidate.map Candidate.position = (s.entry e).candidate.map Candidate.position)
    (hitems : v.candidate = (s.entry e).candidate ∨ ∀ i ∈ s.liveItems, i.entry ≠ e)
    (hname : v.loaded = true → ∀ f, f ≠ e → (s.entry f).loaded = true → v.identity ≠ (s.entry f).identity) :
    (s.setEntry e v).Roster (insert e A) := by
  refine ⟨h.positions, h.entries.set e v, fun f hf => ?_, ?_, ?_, h.items.fewer (List.Subperm.refl _) fun i hi => ?_,
    h.identities.setEntry e hname⟩
  · have hf : f ≠ e ∧ f ∉ A := by simpa using hf
    rw [State.entry_setEntry_other _ _ hf.1]
    exact h.sound f hf.2
  · rw [State.homeOf_setEntry, show v.home = s.homeOf e from hhome, Function.update_eq_self]
    exact h.owners
  · rw [State.candidateOf_setEntry, show v.candidate.map Candidate.position = s.candidateOf e from hposition,
      Function.update_eq_self]
    exact h.pendings
  · rw [State.entry_setEntry]
    split
    · next hie => exact (hitems.resolve_right fun hidle => hidle i hi hie).trans (by rw [hie])
    · rfl

/-- An entry's record with the same home and candidate. -/
theorem State.Roster.setEntry (h : s.Roster A) (e : Nat) {v : Entry} (hhome : v.home = (s.entry e).home)
    (hcandidate : v.candidate = (s.entry e).candidate)
    (hname : v.loaded = true → ∀ f, f ≠ e → (s.entry f).loaded = true → v.identity ≠ (s.entry f).identity) :
    (s.setEntry e v).Roster (insert e A) :=
  h.restage e hhome (congrArg _ hcandidate) (.inl hcandidate) hname

/-- A record with the same home and candidate that is sound if the one before was. -/
theorem State.Roster.renameEntry (h : s.Roster A) (e : Nat) {v : Entry} (hhome : v.home = (s.entry e).home)
    (hcandidate : v.candidate = (s.entry e).candidate)
    (hname : v.loaded = true → ∀ f, f ≠ e → (s.entry f).loaded = true → v.identity ≠ (s.entry f).identity)
    (hsound : (s.entry e).Sound → v.Sound) : (s.setEntry e v).Roster A := by
  have hset := h.setEntry e hhome hcandidate hname
  by_cases he : e ∈ A
  · rwa [Set.insert_eq_of_mem he] at hset
  · refine hset.mend ?_
    rw [State.entry_setEntry_self]
    exact hsound (h.sound e he)

/-- What the laws read of an entry. -/
def Entry.admission (e : Entry) :
    EntryState × Nat × Option Nat × Option Candidate × Option SecondNumber × Option SecondNumber :=
  (e.state, e.identity, e.home, e.candidate, e.refresh, e.rechallenge)

/-- A record that keeps all that the laws read. -/
theorem State.Roster.keepEntry (h : s.Roster A) (e : Nat) {v : Entry} (hkept : v.admission = (s.entry e).admission) :
    (s.setEntry e v).Roster A := by
  generalize hbefore : s.entry e = u at hkept
  cases u
  cases v
  simp only [Entry.admission, Prod.mk.injEq] at hkept
  obtain ⟨rfl, rfl, rfl, rfl, rfl, rfl⟩ := hkept
  exact h.renameEntry e (by rw [hbefore]) (by rw [hbefore])
    (h.identities.fresh fun hloaded => by rw [hbefore]; exact ⟨hloaded, rfl⟩)
    fun hold => by rw [hbefore] at hold; exact ⟨hold.home, hold.deadlines, hold.halted, hold.kinds⟩

/-- A position's record with the same owner and pending entry. -/
theorem State.Roster.keepPosition (h : s.Roster A) (p : Nat) {v : Position} (howner : v.owner = (s.position p).owner)
    (hpending : v.pending = (s.position p).pending) : (s.setPosition p v).Roster A := by
  refine ⟨h.positions.set p v, h.entries, h.sound, ?_, ?_, h.items, h.identities⟩
  · rw [State.ownerOf_setPosition, show v.owner = s.ownerOf p from howner, Function.update_eq_self]
    exact h.owners
  · rw [State.pendingOf_setPosition, show v.pending = s.pendingOf p from hpending, Function.update_eq_self]
    exact h.pendings

end Sys2Proof.Machine
end

section
/-! The laws of admissions under what a candidate and an admission go through: a candidate created and removed, a home
bound and unbound, a call closed, and an admission ended. -/

namespace Sys2Proof.Machine

variable {s t : State} {A B : Set Nat}

/-! ### Reports and replies -/

theorem State.Roster.joinCell (h : s.Roster A) (level : Nat) (cell : OutCell) : (s.joinCell level cell).Roster A := by
  rw [State.joinCell_frame]
  exact h.elsewhere rfl

theorem State.Roster.report (h : s.Roster A) (r : Report) : (s.report r).Roster A := by
  rw [State.report_frame]
  exact h.elsewhere rfl

theorem State.Roster.accept (h : s.Roster A) (tag : Byte) (values : Accepted) : (s.accept tag values).Roster A :=
  h.joinCell _ _

theorem State.Roster.refuse (h : s.Roster A) (tag : Byte) (kind : Nat) (reason : Reason) :
    (s.refuse tag kind reason).Roster A := h.joinCell _ _

theorem State.Roster.replyTo (h : s.Roster A) (p : Nat) (r : LineReply) : (s.replyTo p r).Roster A := h.elsewhere rfl

theorem State.Roster.backoff (h : s.Roster A) (p : Nat) : (s.backoff p).Roster A := h.keepPosition p rfl rfl

theorem State.Roster.waitWithBackoff (h : s.Roster A) (p : Nat) : (s.waitWithBackoff p).Roster A :=
  (h.backoff p).replyTo _ _

theorem State.Roster.rejectWithBackoff (h : s.Roster A) (p : Nat) (reason : RejectReason) :
    (s.rejectWithBackoff p reason).Roster A := (h.backoff p).replyTo _ _

/-! ### Candidates (R58, R75, R82, R95) -/

/-- A candidate that has no live item is removed at its entry and its position together (R75). -/
theorem State.Roster.removeCandidate (h : s.Roster A) {e p : Nat} (hp : s.candidateOf e = some p)
    (hidle : ∀ i ∈ s.liveItems, i.entry ≠ e) : (s.removeCandidate e p).Roster (insert e A) :=
  h.write (h.ownersKept rfl rfl) (h.pendings.cut hp) (.inr hidle) (h.identities.fresh fun hloaded => ⟨hloaded, rfl⟩)

/-- A candidate dropped leaves its entry in hand (R58). -/
theorem State.Roster.dropCandidate (h : s.Roster A) (e : Nat) : (s.dropCandidate e).Roster (insert e A) := by
  unfold State.dropCandidate
  cases hc : (s.entry e).candidate with
  | none => exact h.mono (Set.subset_insert e A)
  | some c =>
    have hp : s.candidateOf e = some c.position := by rw [State.candidateOf, hc]; rfl
    dsimp only
    cases hstage : c.stage with
    | awaiting _ =>
      refine h.removeCandidate hp (h.items.idle fun d hd => ?_)
      obtain rfl := Option.some.inj (hc.symm.trans hd)
      rw [hstage]; nofun
    | queued =>
      have hlive := s.liveItems_voidItems e
      have hvoid : (s.voidItems e).Roster A := h.fewerItems (by rw [hlive]; exact List.filter_sublist.subperm) rfl rfl
      have hidle : ∀ i ∈ (s.voidItems e).liveItems, i.entry ≠ e := fun i hi => by
        rw [hlive] at hi
        exact of_decide_eq_true (List.mem_filter.1 hi).2
      exact hvoid.removeCandidate (e := e) (p := c.position) hp hidle

theorem State.entry_dropCandidate (s : State) (e : Nat) :
    (s.dropCandidate e).entry e = { s.entry e with candidate := none } := (s.dropCandidate_spec e).1

theorem State.entry_dropCandidate_other (s : State) {e f : Nat} (hf : f ≠ e) :
    (s.dropCandidate e).entry f = s.entry f := (s.dropCandidate_spec e).2.1 f hf

/-- A candidate dropped that was no RENEW leaves its entry sound (R82). -/
theorem State.Roster.dropUnhalted (h : s.Roster A) {e : Nat} (he : e ∉ A) (hkind : ¬ (s.entry e).renewing) :
    (s.dropCandidate e).Roster A :=
  (h.dropCandidate e).mend (by rw [s.entry_dropCandidate]; exact (h.sound e he).withoutCandidate hkind)

/-- A candidate written at an entry that holds none and at a position without a pending entry (R75). -/
theorem State.Roster.linkCandidate (h : s.Roster A) {e p : Nat} (c : Candidate) {v : Entry} (hp : c.position = p)
    (hnone : (s.entry e).candidate = none) (hfree : (s.position p).pending = none) (hhome : v.home = (s.entry e).home)
    (hcandidate : v.candidate = some c) (hname : (s.entry e).SameName v) :
    ((s.setEntry e v).setPosition p { s.position p with pending := some e }).Roster (insert e A) := by
  have hidle : ∀ i ∈ s.liveItems, i.entry ≠ e := h.items.idle fun d hd => by rw [hnone] at hd; nomatch hd
  refine h.write (h.ownersKept rfl hhome) ?_ (.inr hidle) (h.identities.fresh hname)
  rw [hcandidate, Option.map_some, hp]
  exact h.pendings.join hfree (by rw [State.candidateOf, hnone]; rfl)

/-- The kinds of candidate that an entry without one may take, and whether the kind halts its refresh deadline, leave it
sound (R82). -/
theorem Entry.Sound.withCandidate {e : Entry} (h : e.Sound) (hnone : e.candidate = none) {c : Candidate}
    (hkind : e.kindAgrees c) :
    ({ e with candidate := some c, refresh := if c.kind = .renew then none else e.refresh } : Entry).Sound := by
  refine ⟨h.home, fun hstate => ⟨?_, (h.deadlines hstate).2⟩, fun hstate => ?_, fun d hd => ?_⟩
  · split
    · rfl
    · exact (h.deadlines hstate).1
  · by_cases hrenew : c.kind = .renew
    · simp [Entry.renewing, hrenew]
    · have hrefresh : e.refresh ≠ none := fun hr => Entry.not_renewing hnone ((h.halted hstate).1 hr)
      simp [Entry.renewing, hrenew, hrefresh]
  · obtain rfl := Option.some.inj hd
    exact hkind

/-- What the creation of a candidate writes (R75, R82, R111). -/
theorem State.createCandidate_eq (s : State) (e p : Nat) (kind : CandidateKind) :
    s.createCandidate e p kind =
      ((s.setEntry e
          { s.entry e with
            refresh := if kind = .renew then none else (s.entry e).refresh
            candidate :=
              some ⟨p, kind, s.frameCount, .awaiting (s.frameCount + BitVec.ofNat 24 s.settings.answerWindow)⟩ }).setPosition
        p { s.position p with pending := some e }).replyTo p (.challenge s.frameCount) := by
  cases kind <;> rfl

/-- A candidate created at a free position for an entry without one, of a kind that the entry allows (R76, R82). -/
theorem State.Roster.createCandidate (h : s.Roster A) {e p : Nat} {kind : CandidateKind} (he : e ∉ A)
    (hnone : (s.entry e).candidate = none) (hfree : (s.position p).pending = none)
    (hkind : ∀ challenge stage, (s.entry e).kindAgrees ⟨p, kind, challenge, stage⟩) :
    (s.createCandidate e p kind).Roster A := by
  rw [State.createCandidate_eq]
  apply State.Roster.replyTo
  apply State.Roster.mend (e := e)
  · exact h.linkCandidate _ rfl hnone hfree rfl rfl fun hloaded => ⟨hloaded, rfl⟩
  · rw [State.entry_setPosition, State.entry_setEntry_self]
    exact (h.sound e he).withCandidate hnone (hkind _ _)

/-! ### Calls (R118, R120) -/

theorem State.Roster.releaseContext (h : s.Roster A) (j : Nat) (call : Call) : (s.releaseContext j call).Roster A := by
  have hleft : (s.setPosition call.position { s.position call.position with context := none }).Roster A :=
    h.keepPosition call.position rfl rfl
  have hfreed := hleft.keepEntry call.entry (v := { s.entry call.entry with context := none }) rfl
  exact hfreed.elsewhere rfl

theorem State.Roster.closeContext (h : s.Roster A) (j : Nat) (cause : CloseCause) :
    (s.closeContext j cause).Roster A := by
  unfold State.closeContext
  split
  · exact h
  · exact (h.releaseContext j _).report _

theorem State.Roster.closeContextOf (h : s.Roster A) (e : Nat) (cause : CloseCause) :
    (s.closeContextOf e cause).Roster A := by
  unfold State.closeContextOf
  split
  · exact h
  · exact h.closeContext _ cause

/-- The close of a call changes no more of an entry than its context. -/
theorem State.entry_closeContextOf (s : State) (x : Nat) (cause : CloseCause) (e : Nat) :
    ∃ j, (s.closeContextOf x cause).entry e = { s.entry e with context := j } := by
  unfold State.closeContextOf State.closeContext
  split
  · exact ⟨_, rfl⟩
  · split
    · exact ⟨_, rfl⟩
    · next call _ =>
      rw [State.report_frame]
      show ∃ j, (s.releaseContext _ call).entry e = _
      rw [State.entry_releaseContext]
      split
      · next he => rw [he]; exact ⟨_, rfl⟩
      · exact ⟨_, rfl⟩

/-- The close of a call leaves every owner. -/
theorem State.owner_closeContextOf (s : State) (x : Nat) (cause : CloseCause) (q : Nat) :
    ((s.closeContextOf x cause).position q).owner = (s.position q).owner := by
  unfold State.closeContextOf State.closeContext
  split
  · rfl
  · split
    · rfl
    · next call _ =>
      rw [State.report_frame]
      show ((s.releaseContext _ call).position q).owner = _
      rw [State.position_releaseContext]
      split
      · next hq => rw [hq]
      · rfl

/-! ### Homes (R36, R63) -/

theorem State.entry_unbind (s : State) (e f : Nat) :
    (s.unbind e).entry f =
      if f = e then { s.entry e with home := none, refresh := none, rechallenge := none } else s.entry f := by
  unfold State.unbind
  dsimp only
  split <;> simp only [State.entry_setPosition, State.entry_setEntry]

theorem State.owner_unbind (s : State) (e q : Nat) :
    ((s.unbind e).position q).owner = if (s.entry e).home = some q then none else (s.position q).owner := by
  unfold State.unbind
  dsimp only
  split
  · next hhome => rw [hhome, if_neg nofun]; rfl
  · next p hhome =>
    rw [hhome, State.position_setPosition]
    by_cases hq : q = p
    · rw [if_pos hq, if_pos (by rw [hq])]; rfl
    · rw [if_neg hq, if_neg fun hp => hq (Option.some.inj hp).symm]; rfl

/-- An entry whose home is unbound is in hand (R63). -/
theorem State.Roster.unbind (h : s.Roster A) (e : Nat) : (s.unbind e).Roster (insert e A) := by
  cases hhome : (s.entry e).home with
  | none =>
    have heq : s.unbind e = s.setEntry e { s.entry e with home := none, refresh := none, rechallenge := none } := by
      simp [State.unbind, hhome]
    rw [heq]
    exact h.setEntry e hhome.symm rfl (h.identities.fresh fun hloaded => ⟨hloaded, rfl⟩)
  | some p =>
    rw [s.unbind_spec e p hhome]
    exact h.write (h.owners.cut hhome) (h.pendingsKept rfl rfl) (.inl rfl)
      (h.identities.fresh fun hloaded => ⟨hloaded, rfl⟩)

/-- An entry without a home is bound to a position without an owner (R63). -/
theorem State.Roster.bind (h : s.Roster A) {e p : Nat} (hhome : (s.entry e).home = none)
    (howner : (s.position p).owner = none) (hloaded : (s.entry e).loaded = true) : (s.bind e p).Roster (insert e A) :=
  h.write (h.owners.join howner hhome) (h.pendingsKept rfl rfl) (.inl rfl) (h.identities.fresh fun _ => ⟨hloaded, rfl⟩)

/-! ### The end of an admission (R58, R63) -/

theorem State.entry_endAdmission (s : State) (e : Nat) (cause : CloseCause) (state : EntryState) :
    ∃ j, (s.endAdmission e cause state).entry e =
      { s.entry e with state := state, home := none, refresh := none, rechallenge := none, context := j } := by
  obtain ⟨j, hj⟩ := s.entry_closeContextOf e cause e
  refine ⟨j, ?_⟩
  rw [State.endAdmission, State.setEntryState, State.entry_setEntry_self, State.entry_unbind, if_pos rfl, hj]

theorem State.entry_endAdmission_other (s : State) (e : Nat) (cause : CloseCause) (state : EntryState) {f : Nat}
    (hf : f ≠ e) : ∃ j, (s.endAdmission e cause state).entry f = { s.entry f with context := j } := by
  obtain ⟨j, hj⟩ := s.entry_closeContextOf e cause f
  refine ⟨j, ?_⟩
  rw [State.endAdmission, State.setEntryState, State.entry_setEntry_other _ _ hf, State.entry_unbind, if_neg hf, hj]

theorem State.owner_endAdmission (s : State) (e : Nat) (cause : CloseCause) (state : EntryState) (q : Nat) :
    ((s.endAdmission e cause state).position q).owner =
      if (s.entry e).home = some q then none else (s.position q).owner := by
  obtain ⟨j, hj⟩ := s.entry_closeContextOf e cause e
  rw [State.endAdmission, State.setEntryState, State.position_setEntry, State.owner_unbind, hj, s.owner_closeContextOf]

/-- An entry in hand without a candidate is sound again once its admission has ended (R63). -/
theorem State.Roster.endAdmission {e : Nat} (h : s.Roster (insert e A)) (cause : CloseCause) {state : EntryState}
    (hnone : (s.entry e).candidate = none) (hloaded : (s.entry e).loaded = true) (hstate : state ≠ .admitted) :
    (s.endAdmission e cause state).Roster A := by
  obtain ⟨j, hj⟩ := s.entry_endAdmission e cause state
  have hunbound : ((s.closeContextOf e cause).unbind e).Roster (insert e A) := by
    simpa using (h.closeContextOf e cause).unbind e
  have hentry : ∃ j, ((s.closeContextOf e cause).unbind e).entry e =
      { s.entry e with home := none, refresh := none, rechallenge := none, context := j } := by
    obtain ⟨j, hj⟩ := s.entry_closeContextOf e cause e
    exact ⟨j, by rw [State.entry_unbind, if_pos rfl, hj]⟩
  obtain ⟨k, hk⟩ := hentry
  have hset : (s.endAdmission e cause state).Roster (insert e (insert e A)) :=
    hunbound.setEntry e rfl rfl (hunbound.identities.fresh fun _ => ⟨by rw [hk]; exact hloaded, rfl⟩)
  rw [Set.insert_idem] at hset
  refine hset.mend ?_
  rw [hj]
  exact .outside hstate rfl hnone rfl rfl

/-- A loaded entry whose candidate is dropped and whose admission ends (R58). -/
theorem State.Roster.dropAndEnd (h : s.Roster A) {e : Nat} (cause : CloseCause) {state : EntryState}
    (hloaded : (s.entry e).loaded = true) (hstate : state ≠ .admitted) :
    ((s.dropCandidate e).endAdmission e cause state).Roster A :=
  (h.dropCandidate e).endAdmission cause (by rw [s.entry_dropCandidate]) (by rw [s.entry_dropCandidate]; exact hloaded)
    hstate

end Sys2Proof.Machine
end

section
/-! The laws of admissions under the outcomes of a verification and the deadlines (R86, R87, R96 to R105, R108, R110). -/

namespace Sys2Proof.Machine

variable {s t : State} {A : Set Nat}

theorem State.entry_report (s : State) (r : Report) (e : Nat) : (s.report r).entry e = s.entry e := by
  rw [State.report_frame]; rfl

theorem State.position_report (s : State) (r : Report) (p : Nat) : (s.report r).position p = s.position p := by
  rw [State.report_frame]; rfl

/-! ### An entry whose candidate has left -/

/-- An entry that has just lost a candidate of a kind at a position: sound but for the refresh deadline that a RENEW
halted (R82, R96). -/
structure Entry.Left (e : Entry) (kind : CandidateKind) (p : Nat) : Prop where
  candidate : e.candidate = none
  home : e.home ≠ none ↔ e.state = .admitted
  deadlines : e.state ≠ .admitted → e.refresh = none ∧ e.rechallenge = none
  running : kind ≠ .renew → e.state = .admitted → e.refresh ≠ none
  kinds : ∀ challenge stage, e.kindAgrees ⟨p, kind, challenge, stage⟩

theorem Entry.Sound.left {e : Entry} (h : e.Sound) {c : Candidate} (hc : e.candidate = some c) :
    ({ e with candidate := none } : Entry).Left c.kind c.position := by
  refine ⟨rfl, h.home, h.deadlines, fun hkind hstate hrefresh => ?_, fun _ _ => h.kinds c hc⟩
  obtain ⟨d, hd, hrenew⟩ := (h.halted hstate).1 hrefresh
  obtain rfl := Option.some.inj (hc.symm.trans hd)
  exact hkind hrenew

theorem Entry.Left.sound {e : Entry} {kind : CandidateKind} {p : Nat} (h : e.Left kind p) (hkind : kind ≠ .renew) :
    e.Sound :=
  ⟨h.home, h.deadlines, fun hstate => ⟨fun hrefresh => absurd hrefresh (h.running hkind hstate),
    fun hrenewing => absurd hrenewing (Entry.not_renewing h.candidate)⟩,
    fun c hc => by rw [h.candidate] at hc; nomatch hc⟩

/-- A FIRST candidate leaves an ABSENT entry, any other an ADMITTED one with a home (R76). -/
theorem Entry.Left.state {e : Entry} {kind : CandidateKind} {p : Nat} (h : e.Left kind p) :
    e.state = if kind = .first then .absent else .admitted := by
  have hkind := h.kinds 0 .queued
  cases kind with
  | first => exact hkind
  | move | renew => exact hkind.1

theorem Entry.Left.loaded {e : Entry} {kind : CandidateKind} {p : Nat} (h : e.Left kind p) : e.loaded = true := by
  rw [Entry.loaded, h.state]
  cases kind <;> rfl

theorem Entry.Left.exists_home {e : Entry} {kind : CandidateKind} {p : Nat} (h : e.Left kind p) (hkind : kind ≠ .first) :
    ∃ q, e.home = some q :=
  Option.ne_none_iff_exists'.1 (h.home.2 (by rw [h.state, if_neg hkind]))

/-! ### A MATCH (R97 to R101) -/

/-- An entry in hand that stands ADMITTED at a home is welcomed: its deadlines are loaded (R101). -/
theorem State.Roster.welcome {e : Nat} (h : s.Roster (insert e A)) (p : Nat) (renew : Bool)
    (hstate : (s.entry e).state = .admitted) (hhome : (s.entry e).home ≠ none) (hnone : (s.entry e).candidate = none) :
    (s.welcome e p renew).Roster A := by
  have hset : (s.loadDeadlines e).Roster (insert e (insert e A)) :=
    h.setEntry e rfl rfl (h.identities.fresh fun hloaded => ⟨hloaded, rfl⟩)
  rw [Set.insert_idem] at hset
  have hloaded : (s.loadDeadlines e).Roster A := by
    refine hset.mend ?_
    rw [State.loadDeadlines, State.entry_setEntry_self]
    exact .inside hstate hhome hnone nofun
  have hcleared : ((s.loadDeadlines e).clearCounts e p).Roster A :=
    (hloaded.keepEntry e (v := { (s.loadDeadlines e).entry e with failures := 0 }) rfl).keepPosition p rfl rfl
  exact (hcleared.replyTo _ _).report _

/-- The owner of a position is displaced, and an entry in hand without a home is let be (R98). -/
theorem State.Roster.displaceOwner {e : Nat} (h : s.Roster (insert e ∅)) (hhome : (s.entry e).home = none) (p : Nat) :
    (s.displaceOwner p e).Roster (insert e ∅) ∧ ((s.displaceOwner p e).position p).owner = none ∧
      ∃ j, (s.displaceOwner p e).entry e = { s.entry e with context := j } := by
  unfold State.displaceOwner
  cases howner : (s.position p).owner with
  | none => exact ⟨h, howner, _, rfl⟩
  | some x =>
    have hx : (s.entry x).home = some p := (h.owners p x).1 howner
    have hxe : x ≠ e := by rintro rfl; rw [hhome] at hx; nomatch hx
    have hloaded : (s.entry x).loaded = true :=
      Entry.loaded_of_admitted ((h.sound x fun hin => hin.elim hxe id).state_of_home hx)
    dsimp only
    rw [if_neg hxe]
    unfold State.displace
    refine ⟨(h.dropAndEnd (state := .absent) .displaced hloaded nofun).report _, ?_, ?_⟩
    · rw [State.position_report, State.owner_endAdmission, State.entry_dropCandidate, if_pos hx]
    · rw [State.entry_report, ← s.entry_dropCandidate_other (Ne.symm hxe)]
      exact State.entry_endAdmission_other _ x .displaced .absent (Ne.symm hxe)

/-- A loaded entry in hand without a home or a candidate is bound to a position in place of its owner, and welcomed
(R97, R99). -/
theorem State.Roster.bindAndWelcome {e : Nat} (h : s.Roster (insert e ∅)) (p : Nat) (hhome : (s.entry e).home = none)
    (hnone : (s.entry e).candidate = none) (hloaded : (s.entry e).loaded = true) :
    (((s.displaceOwner p e).bind e p).welcome e p false).Roster ∅ := by
  obtain ⟨hdisplaced, howner, j, hj⟩ := h.displaceOwner hhome p
  generalize s.displaceOwner p e = u at hdisplaced howner hj
  have hbound := hdisplaced.bind (e := e) (by rw [hj]; exact hhome) howner (by rw [hj]; exact hloaded)
  rw [Set.insert_idem] at hbound
  have hentry : (u.bind e p).entry e = { u.entry e with state := .admitted, home := some p } := by
    rw [State.bind, State.entry_setPosition, State.entry_setEntry_self]
  refine hbound.welcome p false ?_ ?_ ?_
  all_goals rw [hentry]
  · exact nofun
  · rw [hj]; exact hnone

/-- An entry in hand leaves its home, if it has one (R99). -/
theorem State.Roster.leaveHome {e : Nat} (h : s.Roster (insert e A)) (p : Nat) :
    (s.leaveHome e p).Roster (insert e A) ∧ ((s.leaveHome e p).entry e).home = none ∧
      ((s.leaveHome e p).entry e).candidate = (s.entry e).candidate ∧
      ((s.leaveHome e p).entry e).state = (s.entry e).state := by
  unfold State.leaveHome
  cases hhome : (s.entry e).home with
  | none => exact ⟨h, hhome, rfl, rfl⟩
  | some q =>
    have hunbound := (h.closeContextOf e .moved).unbind e
    rw [Set.insert_idem] at hunbound
    obtain ⟨j, hj⟩ := s.entry_closeContextOf e .moved e
    have hentry : ((((s.closeContextOf e .moved).unbind e).replyTo q (.lapsed .moved)).report (.moved e q p)).entry e =
        { s.entry e with home := none, refresh := none, rechallenge := none, context := j } := by
      rw [State.entry_report]
      show ((s.closeContextOf e .moved).unbind e).entry e = _
      rw [State.entry_unbind, if_pos rfl, hj]
    dsimp only
    rw [hentry]
    exact ⟨(hunbound.replyTo _ _).report _, rfl, rfl, rfl⟩

theorem State.Roster.applyMatch {e p : Nat} {kind : CandidateKind} (h : s.Roster (insert e ∅))
    (hleft : (s.entry e).Left kind p) : (s.applyMatch e p kind).Roster ∅ := by
  have hstate := hleft.state
  cases kind with
  | first =>
    have hhome : (s.entry e).home = none := by
      by_contra hhome
      exact nomatch hstate.symm.trans (hleft.home.1 hhome)
    exact h.bindAndWelcome p hhome hleft.candidate hleft.loaded
  | move =>
    obtain ⟨hmoved, hhome, hcandidate, hkept⟩ := h.leaveHome p
    exact hmoved.bindAndWelcome p hhome (hcandidate.trans hleft.candidate)
      (Entry.loaded_of_admitted (hkept.trans hstate))
  | renew => exact h.welcome p true hstate (hleft.home.2 hstate) hleft.candidate

/-! ### A MISMATCH and NOT READY (R102 to R105) -/

/-- A failed RENEW ends the admission; any other failure leaves the entry as it was (R104, R105). -/
theorem State.Roster.endRenewal {e p : Nat} {kind : CandidateKind} (h : s.Roster (insert e A))
    (hleft : (s.entry e).Left kind p) : (s.endRenewal e kind).Roster A := by
  cases kind with
  | first | move => exact h.mend (hleft.sound nofun)
  | renew => exact h.endAdmission .renewFailed hleft.candidate hleft.loaded nofun

/-- A bar ends the admission that a MOVE or a RENEW has; a FIRST has none to end (R103). -/
theorem State.Roster.barForFailures {e p : Nat} {kind : CandidateKind} (h : s.Roster (insert e A))
    (hleft : (s.entry e).Left kind p) : (s.barForFailures e p kind).Roster A := by
  have hended : (s.endAdmission e .barred .barred).Roster A := h.endAdmission .barred hleft.candidate hleft.loaded nofun
  unfold State.barForFailures
  dsimp only
  split
  · exact (hended.replyTo _ _).report _
  · exact hended.report _
  · next kind _ _ hmove hrenew =>
    have hfirst : kind = .first := by
      by_contra hkind
      obtain ⟨q, hq⟩ := hleft.exists_home hkind
      cases kind with
      | first => exact hkind rfl
      | move => exact hmove q rfl hq
      | renew => exact hrenew q rfl hq
    have hstate : (s.entry e).state = .absent := by rw [hleft.state, if_pos hfirst]
    obtain ⟨hrefresh, hrechallenge⟩ := hleft.deadlines (by rw [hstate]; nofun)
    have hhome : (s.entry e).home = none := by
      by_contra hhome
      exact nomatch hstate.symm.trans (hleft.home.1 hhome)
    have hset := h.setEntry e (v := { s.entry e with state := .barred }) rfl rfl
      (h.identities.fresh fun _ => ⟨hleft.loaded, rfl⟩)
    rw [Set.insert_idem] at hset
    refine State.Roster.report (hset.mend ?_) _
    rw [State.entry_setEntry_self]
    exact .outside nofun hhome hleft.candidate hrefresh hrechallenge

theorem State.Roster.applyMismatch {e p : Nat} {kind : CandidateKind} (h : s.Roster (insert e A))
    (hleft : (s.entry e).Left kind p) : (s.applyMismatch e p kind).Roster A := by
  have hcounted := h.keepEntry e (v := { s.entry e with failures := saturatingNext 7 (s.entry e).failures }) rfl
  have hstill : ((s.setEntry e { s.entry e with failures := saturatingNext 7 (s.entry e).failures }).entry e).Left
      kind p := by
    rw [State.entry_setEntry_self]
    exact ⟨hleft.candidate, hleft.home, hleft.deadlines, hleft.running, hleft.kinds⟩
  unfold State.applyMismatch
  dsimp only
  split
  · exact ((hcounted.barForFailures hstill).rejectWithBackoff p _).report _
  · exact ((hcounted.endRenewal hstill).rejectWithBackoff p _).report _

theorem State.Roster.applyNotReady {e p : Nat} {kind : CandidateKind} (h : s.Roster (insert e A))
    (hleft : (s.entry e).Left kind p) : (s.applyNotReady e p kind).Roster A :=
  ((h.endRenewal hleft).replyTo _ _).report _

/-! ### Completions (R95, R96) -/

/-- A candidate removed leaves its entry in hand, with what it needs for its outcome. -/
theorem State.Roster.takeCandidate (h : s.Roster ∅) {e : Nat} {c : Candidate} (hc : (s.entry e).candidate = some c)
    (hidle : ∀ i ∈ s.liveItems, i.entry ≠ e) :
    (s.removeCandidate e c.position).Roster (insert e ∅) ∧
      ((s.removeCandidate e c.position).entry e).Left c.kind c.position := by
  refine ⟨h.removeCandidate (by rw [State.candidateOf, hc]; rfl) hidle, ?_⟩
  rw [State.removeCandidate_eq, State.entry_candidateLeft, if_pos rfl]
  exact (h.sound e (Set.notMem_empty e)).left hc

/-- The first item that completes is one of the items, and the others are those without it. -/
theorem State.items_perm_completing {f : FlightItem} {rest : List FlightItem} (hs : s.completing = f :: rest) :
    s.items.Perm (f.item :: State.items { s with completing := rest }) := by
  rw [State.items, State.items, hs, List.map_cons]
  exact List.perm_middle

/-- The item that completes first leaves the laws standing: a void one is none of their concern, and a live one's
candidate is at its position, QUEUED, and has no other live item (R95, R96). -/
theorem State.Roster.completeFirst (h : s.Roster ∅) {f : FlightItem} {rest : List FlightItem}
    (hs : s.completing = f :: rest) : (State.completeItem { s with completing := rest } f).Roster ∅ := by
  have hperm := State.items_perm_completing hs
  have hrest : State.Roster { s with completing := rest } ∅ :=
    h.fewerItems (State.liveItems_subperm ((List.sublist_cons_self _ _).subperm.trans hperm.symm.subperm)) rfl rfl
  unfold State.completeItem
  split
  · exact hrest
  · next hvoid =>
    have hlive : s.liveItems.Perm (f.item :: State.liveItems { s with completing := rest }) := by
      have hfilter := hperm.filter fun i => !i.isVoid
      rwa [List.filter_cons_of_pos (by simpa using hvoid)] at hfilter
    have hitem : s.itemHasCandidate f.item := h.items.1 f.item (hlive.mem_iff.2 (List.mem_cons_self ..))
    have hidle : ∀ i ∈ State.liveItems { s with completing := rest }, i.entry ≠ f.item.entry := by
      have hnodup := (hlive.map VerifyItem.entry).nodup_iff.1 h.items.2
      rw [List.map_cons, List.nodup_cons] at hnodup
      exact fun i hi heq => hnodup.1 (heq ▸ List.mem_map_of_mem hi)
    split
    · exact hrest
    · next c hc =>
      have hposition : c.position = f.item.position := by
        have hitem := (congrArg (Option.map _) (show (s.entry f.item.entry).candidate = some c from hc)).symm.trans hitem
        exact (Prod.mk.inj (Option.some.inj hitem)).1
      obtain ⟨hremoved, hleft⟩ := hrest.takeCandidate hc hidle
      rw [hposition] at hremoved hleft
      cases f.verdict with
      | matched => exact hremoved.applyMatch hleft
      | mismatch => exact hremoved.applyMismatch hleft
      | notReady => exact hremoved.applyNotReady hleft

theorem State.Roster.completeItems (h : s.Roster ∅) (n : Nat) : (State.completeItems n s).Roster ∅ := by
  induction n generalizing s with
  | zero => exact h
  | succ n ih =>
    unfold State.completeItems
    split
    · exact h
    · next f rest hs => exact ih (h.completeFirst hs)

theorem State.Roster.takeSecond (h : s.Roster A) : s.takeSecond.Roster A := by
  unfold State.takeSecond
  split
  · exact h.elsewhere rfl
  · exact h

theorem State.Roster.complete (h : s.Roster ∅) : s.complete.Roster ∅ := by
  unfold State.complete
  split
  · exact h
  · exact h.takeSecond.completeItems _

/-! ### The deadlines (R77, R86, R87, R108, R110) -/

theorem State.Roster.takeHoldOff (h : s.Roster A) (p : Nat) : (s.takeHoldOff p).Roster A := by
  unfold State.takeHoldOff
  split
  · exact h.keepPosition p rfl rfl
  · exact h

/-- A candidate at its answer deadline is AWAITING, so that no item of its entry is live (R86). -/
theorem State.Roster.takeAnswerDeadline (h : s.Roster ∅) (e : Nat) : (s.takeAnswerDeadline e).Roster ∅ := by
  unfold State.takeAnswerDeadline
  split
  · exact h
  · next c hc =>
    split
    · next hstage =>
      obtain ⟨hremoved, hleft⟩ := h.takeCandidate hc (h.items.idle fun d hd => by
        obtain rfl := Option.some.inj (hc.symm.trans hd)
        rw [hstage]; nofun)
      unfold State.answerTimeout
      dsimp only
      cases hkind : c.kind with
      | first | move => exact (hremoved.mend (hleft.sound (by rw [hkind]; nofun))).replyTo _ _
      | renew => exact ((hremoved.endAdmission (state := .absent) _ hleft.candidate hleft.loaded nofun).replyTo _ _).report _
    · exact h

/-- A refresh deadline is present in an admission only, which its lapse ends (R54, R108). -/
theorem State.Roster.takeRefresh (h : s.Roster ∅) (e : Nat) : (s.takeRefresh e).Roster ∅ := by
  unfold State.takeRefresh State.lapse
  split
  · next hrefresh =>
    have hstate : (s.entry e).state = .admitted := by
      by_contra hstate
      exact nomatch hrefresh.symm.trans ((h.sound e (Set.notMem_empty e)).deadlines hstate).1
    have hended := h.dropAndEnd (state := .absent) .lapsed (Entry.loaded_of_admitted hstate) nofun
    dsimp only
    split
    · exact hended
    · exact (hended.replyTo _ _).report _
  · exact h

/-- A re-challenge deadline is present in an admission only; its RENEW stands at the home (R54, R110, R111). -/
theorem State.Roster.takeRechallenge (h : s.Roster ∅) (e : Nat) : (s.takeRechallenge e).Roster ∅ := by
  have hsound := h.sound e (Set.notMem_empty e)
  unfold State.takeRechallenge
  split
  · next hdue =>
    have hstate : (s.entry e).state = .admitted := by
      by_contra hstate
      exact nomatch hdue.symm.trans (hsound.deadlines hstate).2
    split
    · exact h
    · next p hhome =>
      have hset (d : Option SecondNumber) : (s.setEntry e { s.entry e with rechallenge := d }).Roster ∅ :=
        h.renameEntry e rfl rfl (h.identities.fresh fun hloaded => ⟨hloaded, rfl⟩)
          fun hold => ⟨hold.home, fun hs => absurd hstate hs, hold.halted, hold.kinds⟩
      unfold State.rechallengeAt
      split
      · exact hset _
      · next hfree =>
        simp only [State.rechallengeBlocked, Bool.or_eq_true, not_or, Bool.not_eq_true, Option.isSome_eq_false_iff,
          Option.isNone_iff_eq_none] at hfree
        obtain ⟨⟨hnone, hpending⟩, -⟩ := hfree
        refine (hset none).createCandidate (Set.notMem_empty e) ?_ hpending fun _ _ => ?_
        all_goals rw [State.entry_setEntry_self]
        · exact hnone
        · exact ⟨hstate, hhome⟩
  · exact h

end Sys2Proof.Machine
end

section
/-! The laws of admissions under the events of a frame. The two sides of a call write contexts and report, and nothing
else (R130 to R134, R142 to R150): what these keep, the sides keep. -/

namespace Sys2Proof.Machine

variable {s t : State} {A : Set Nat}

/-! ### The two sides of a call -/

section

variable {P : State → Prop} (hcontext : ∀ v j c, P v → P (State.setContext v j c))
  (hreport : ∀ v r, P v → P (State.report v r))
include hcontext hreport

omit hcontext in
theorem State.reportStagedTaken_keeps (h : P s) (j p : Nat) (g : Generation) (otherTaken : Bool) :
    P (s.reportStagedTaken j p g otherTaken) := by
  unfold State.reportStagedTaken
  split
  · exact hreport _ _ h
  · exact h

theorem State.txSkip_keeps (h : P s) (j : Nat) (call : Call) (reason : SkipReason) : P (s.txSkip j call reason) := by
  unfold State.txSkip
  dsimp only
  split
  · exact h
  · exact hreport _ _ (hcontext _ _ _ h)

/-- The transmit side of a call (R130 to R134). -/
theorem State.txAdvance_keeps (h : P s) (j : Nat) : P (s.txAdvance j) := by
  unfold State.txAdvance State.txStep State.rekeyDecision State.txCommit
  split
  · exact h
  · dsimp only
    split
    · split
      · exact State.txSkip_keeps hcontext hreport (hcontext _ _ _ h) _ _ _
      · split
        · exact State.txSkip_keeps hcontext hreport (hcontext _ _ _ h) _ _ _
        · exact State.reportStagedTaken_keeps hreport (hreport _ _ (hcontext _ _ _ (hcontext _ _ _ h))) _ _ _ _
    · exact hcontext _ _ _ h

theorem State.enterKeyWait_keeps (h : P s) (j : Nat) (call : Call) (before : SyncState) (cause : KeyMissCause)
    (g : Generation) : P (s.enterKeyWait j call before cause g) := by
  unfold State.enterKeyWait
  dsimp only
  split
  · exact hcontext _ _ _ h
  · exact hreport _ _ (hcontext _ _ _ h)

theorem State.generationCheck_keeps (h : P s) (j : Nat) (call : Call) (before : SyncState) (g : Generation) :
    P (s.generationCheck j call before g) := by
  unfold State.generationCheck State.rxCommit
  dsimp only
  split
  · exact hcontext _ _ _ h
  · split
    · split
      · exact State.reportStagedTaken_keeps hreport (hreport _ _ (hcontext _ _ _ h)) _ _ _ _
      · exact State.enterKeyWait_keeps hcontext hreport h _ _ _ _ _
    · exact State.enterKeyWait_keeps hcontext hreport h _ _ _ _ _

theorem State.recognise_keeps (h : P s) (j : Nat) (call : Call) (b : FoundBurst) : P (s.recognise j call b) := by
  have hcheck {v : State} (hv : P v) : P (v.generationCheck j call (s.context j).sync b.generation) :=
    State.generationCheck_keeps hcontext hreport hv _ _ _ _
  unfold State.recognise
  dsimp only
  split
  · exact hcheck (hreport _ _ (hcontext _ _ _ h))
  · exact hcheck (hcontext _ _ _ h)
  · exact hcheck (hcontext _ _ _ h)
  · split
    · exact hcheck (hcontext _ _ _ h)
    · exact hcheck (hreport _ _ (hcontext _ _ _ h))

/-- The receive side of a call (R142 to R150). -/
theorem State.receive_keeps (h : P s) (j : Nat) (call : Call) (code : Byte) : P (s.receive j call code) := by
  unfold State.receive State.decideArrival State.countMiss
  dsimp only
  split
  · exact State.recognise_keeps hcontext hreport (hcontext _ _ _ h) _ _ _
  · split
    · split
      · exact hcontext _ _ _ (hcontext _ _ _ h)
      · exact hreport _ _ (hcontext _ _ _ (hcontext _ _ _ h))
    · exact hcontext _ _ _ h

end

theorem State.Roster.setContext (h : s.Roster A) (j : Nat) (c : Context) : (s.setContext j c).Roster A := h.elsewhere rfl

theorem State.Roster.txAdvance (h : s.Roster A) (j : Nat) : (s.txAdvance j).Roster A :=
  State.txAdvance_keeps (P := fun v => v.Roster A) (fun _ j c hv => hv.setContext j c) (fun _ r hv => hv.report r) h j

theorem State.Roster.receive (h : s.Roster A) (j : Nat) (call : Call) (code : Byte) :
    (s.receive j call code).Roster A :=
  State.receive_keeps (P := fun v => v.Roster A) (fun _ j c hv => hv.setContext j c) (fun _ r hv => hv.report r) h j call
    code

/-! ### Arrivals and slots (R34, R39 to R46) -/

theorem State.Roster.toSwitch (h : s.Roster A) (p : Nat) (code : Byte) : (s.toSwitch p code).Roster A :=
  h.keepPosition p rfl rfl

theorem State.Roster.toLine (h : s.Roster A) (p : Nat) (code : Byte) : (s.toLine p code).Roster A :=
  h.keepPosition p rfl rfl

theorem State.Roster.countUpClamp (h : s.Roster A) (p : Nat) (code : Byte) : (s.countUpClamp p code).Roster A :=
  h.keepPosition p rfl rfl

theorem State.Roster.countDownClamp (h : s.Roster A) (p : Nat) (clamped : Bool) : (s.countDownClamp p clamped).Roster A :=
  h.keepPosition p rfl rfl

theorem State.Roster.upstream (h : s.Roster A) (p : Nat) (code : Byte) : (s.upstream p code).Roster A := by
  unfold State.upstream
  cases s.effective p with
  | lineLoop => exact (h.toLine p code).toSwitch p 255
  | switchLoop => exact h.toLine p 255
  | pending | mute => exact h.toSwitch p 255
  | clear | tone => exact (h.countUpClamp p code).toSwitch p _
  | scrambled shape j call =>
    cases shape with
    | mute => exact h.toSwitch p _
    | clear | tone => exact (h.countUpClamp p code).toSwitch p _

theorem State.Roster.downstream (h : s.Roster A) (p : Nat) (code looped : Byte) :
    (s.downstream p code looped).Roster A := by
  unfold State.downstream
  cases s.effective p with
  | lineLoop => exact h
  | switchLoop => exact h.toSwitch p code
  | pending | mute | tone => exact h.toLine p _
  | clear => exact (h.countDownClamp p _).toLine p _
  | scrambled shape j call =>
    have hcounted := h.countDownClamp p (s.releaseAt p (s.context j) call).clamped
    exact (hcounted.keepPosition p (by rfl) (by rfl)).receive j call _

theorem Position.bonds_driveSwitch (pos : Position) :
    pos.driveSwitch.owner = pos.owner ∧ pos.driveSwitch.pending = pos.pending := by
  unfold Position.driveSwitch
  split
  · exact ⟨rfl, rfl⟩
  · exact ⟨rfl, rfl⟩

theorem Position.bonds_driveLine (pos : Position) :
    pos.driveLine.owner = pos.owner ∧ pos.driveLine.pending = pos.pending := by
  unfold Position.driveLine
  split
  · exact ⟨rfl, rfl⟩
  · exact ⟨rfl, rfl⟩

theorem State.Roster.driveBoth (h : s.Roster A) (p : Nat) : (s.driveBoth p).Roster A := by
  obtain ⟨howner, hpending⟩ := (s.position p).bonds_driveSwitch
  obtain ⟨howner', hpending'⟩ := (s.position p).driveSwitch.bonds_driveLine
  exact h.keepPosition p (howner'.trans howner) (hpending'.trans hpending)

theorem State.Roster.supplyUp (h : s.Roster A) (p : Nat) : (s.supplyUp p).Roster A := by
  unfold State.supplyUp
  split
  · exact State.Roster.upstream (h.elsewhere (by rfl)) p 255
  · exact h

theorem State.Roster.supplyDown (h : s.Roster A) (p : Nat) : (s.supplyDown p).Roster A := by
  unfold State.supplyDown
  split
  · exact State.Roster.downstream (h.elsewhere (by rfl)) p 255 255
  · exact h

theorem State.Roster.supplyBoth (h : s.Roster A) (p : Nat) : (s.supplyBoth p).Roster A := (h.supplyUp p).supplyDown p

theorem State.Roster.takeTx (h : s.Roster A) (j : Nat) : (s.takeTx j).Roster A := by
  unfold State.takeTx
  split
  · dsimp only
    split
    · exact h.elsewhere rfl
    · exact (State.Roster.supplyUp (h.elsewhere (by rfl)) _).txAdvance j
  · exact h

theorem State.Roster.takePlayout (h : s.Roster A) (c : Nat) : (s.takePlayout c).Roster A := by
  unfold State.takePlayout State.playoutStep
  split
  · dsimp only
    split
    · exact h.elsewhere rfl
    · exact h.elsewhere rfl
    · split
      · exact State.Roster.report (h.elsewhere (by rfl)) _
      · exact h.elsewhere rfl
  · exact h

theorem State.Roster.takeLineCell (h : s.Roster A) (i : Nat) : (s.takeLineCell i).Roster A := by
  unfold State.takeLineCell
  split
  · exact h.elsewhere rfl
  · exact h

theorem State.Roster.sendReport (h : s.Roster A) (cut : Bool) : (s.sendReport cut).Roster A := by
  unfold State.sendReport
  split
  · exact h
  · split
    · exact h.elsewhere rfl
    · exact h.elsewhere rfl

theorem State.Roster.takeReport (h : s.Roster A) : s.takeReport.Roster A := by
  unfold State.takeReport
  split
  · exact State.Roster.sendReport (h.elsewhere (by rfl)) _
  · exact h

/-- The Mixing Unit moves items from the queue into flight (R28, R29). -/
theorem State.items_takeItems (s : State) : s.takeItems.items.Perm s.items := by
  have hqueue := List.take_append_drop (verificationCapacity s.reserved.length) s.verifyQueue
  simp only [State.items, State.takeItems, List.map_append, List.map_map, Function.comp_def, List.map_id']
  conv_rhs => rw [← hqueue]
  refine List.Perm.append_right _ ?_
  rw [← List.append_assoc, List.append_assoc (List.take _ _)]
  exact List.perm_append_comm

theorem State.Roster.takeVerifications (h : s.Roster A) : s.takeVerifications.Roster A := by
  unfold State.takeVerifications
  split
  · exact h.fewerItems (State.liveItems_subperm s.items_takeItems.subperm) rfl rfl
  · exact h

theorem State.Roster.advanceTxAt (h : s.Roster A) (p : Nat) : (s.advanceTxAt p).Roster A := by
  rcases s.advanceTxAt_cases p with heq | ⟨_, j, _, _, heq⟩
  · rw [heq]; exact h
  · rw [heq]; exact h.takeTx j

theorem State.Roster.upstreamCarried (h : s.Roster A) (p : Nat) (code : Byte) : (s.upstreamCarried p code).Roster A :=
  ((((h.supplyBoth p).advanceTxAt p).driveBoth p).upstream p code).keepPosition p rfl rfl

theorem State.Roster.downstreamCarried (h : s.Roster A) (p : Nat) (code : Byte) :
    (s.downstreamCarried p code).Roster A := by
  have hbefore : (s.supplyBoth p).beforeDownstream.Roster A :=
    (State.forEach_keeps (P := fun v => v.Roster A) (fun _ c hv => hv.takePlayout c) _ (h.supplyBoth p)).takeReport
  exact ((hbefore.driveBoth p).downstream p code _).keepPosition p rfl rfl

theorem State.Roster.driveSlot (h : s.Roster A) (p : Nat) (side : Side) : (s.driveSlot p side).Roster A := by
  have hsupplied := h.supplyBoth p
  cases side with
  | switch =>
    obtain ⟨howner, hpending⟩ := ((s.supplyBoth p).position p).bonds_driveSwitch
    exact hsupplied.keepPosition p howner hpending
  | line =>
    obtain ⟨howner, hpending⟩ := ((s.supplyBoth p).position p).bonds_driveLine
    exact hsupplied.keepPosition p howner hpending

/-! ### Boundaries (R2, R27, R30, R34) -/

/-- All that a boundary brings about (assumption 2). -/
theorem State.Roster.finishBoundary (h : s.Roster ∅) : s.finishBoundary.Roster ∅ :=
  State.finishBoundary_keeps (P := fun v => v.Roster ∅) (fun _ p hv => hv.supplyUp p) (fun _ p hv => hv.supplyDown p)
    (fun _ hv => hv.takeSecond) (fun _ hv => hv.complete) (fun _ hv => hv.takeVerifications)
    (fun _ p hv => hv.takeHoldOff p) (fun _ e hv => hv.takeAnswerDeadline e) (fun _ e hv => hv.takeRefresh e)
    (fun _ e hv => hv.takeRechallenge e) (fun _ j hv => hv.takeTx j) (fun _ c hv => hv.takePlayout c)
    (fun _ i hv => hv.takeLineCell i) (fun _ hv => hv.takeReport) h

theorem Position.bonds_endFrame (pos : Position) (cut : Bool) :
    (pos.endFrame cut).owner = pos.owner ∧ (pos.endFrame cut).pending = pos.pending := by
  cases cut with
  | true => exact ⟨rfl, rfl⟩
  | false =>
    obtain ⟨howner, hpending⟩ := pos.bonds_driveSwitch
    obtain ⟨howner', hpending'⟩ := pos.driveSwitch.bonds_driveLine
    exact ⟨howner'.trans howner, hpending'.trans hpending⟩

/-- At a boundary the items in flight come to their completion (R30). -/
theorem State.items_crossBoundary (s : State) (cut : Bool) : (s.crossBoundary cut).items.Perm s.items := by
  simp only [State.items, State.crossBoundary, List.map_append, List.map_nil, List.append_nil, List.append_assoc]
  exact List.Perm.append_left _ List.perm_append_comm

theorem State.Roster.crossBoundary (h : s.Roster A) (cut : Bool) : (s.crossBoundary cut).Roster A := by
  refine h.reread (h.positions.mapAll (Position.endFrame cut)) h.entries (fun p => ?_) (fun e => ⟨_, rfl⟩)
    (State.liveItems_subperm (s.items_crossBoundary cut).subperm)
  have hread : (s.crossBoundary cut).position p = (s.position p).endFrame cut :=
    h.positions.get_mapAll (by cases cut <;> rfl) p
  rw [hread]
  exact (s.position p).bonds_endFrame cut

theorem State.Roster.framePulse (h : s.Roster ∅) (early : Bool) : (s.framePulse early).Roster ∅ := by
  unfold State.framePulse
  split
  · have hsent : (({ s with pulse := .running } : State).forEach (List.range 4) fun v i => v.sendLine i false).Roster ∅ :=
      State.forEach_keeps (P := fun v => v.Roster ∅) (fun _ _ hv => hv.elsewhere rfl) (List.range 4) (h.elsewhere rfl)
    exact hsent.sendReport false
  · exact h.finishBoundary.crossBoundary _
  · exact h.finishBoundary.crossBoundary _

/-! ### Reset and restarts (R14, R53, R128, R170) -/

theorem State.Roster.reset (s : State) :
    State.Roster { State.reset with pending := s.pending, freeCount := s.freeCount } A :=
  .of_vacant ⟨0, rfl⟩ ⟨0, rfl⟩ (fun _ => ⟨rfl, rfl⟩) (fun _ => ⟨Entry.sound_reset, rfl, rfl⟩) rfl nofun

theorem State.Roster.restartCalls (h : s.Roster A) : s.restartCalls.Roster A := by
  refine h.reread (h.positions.mapAll fun v => { v with context := none })
    (h.entries.mapAll fun v => { v with context := none }) (fun p => ?_) (fun e => ⟨none, ?_⟩) (List.Subperm.refl _)
  · have hread : s.restartCalls.position p = { s.position p with context := none } :=
      h.positions.get_mapAll (f := fun v => { v with context := none }) rfl p
    rw [hread]
    exact ⟨rfl, rfl⟩
  · exact h.entries.get_mapAll (f := fun v => { v with context := none }) rfl e

theorem Entry.sound_restarted (e : Entry) : e.restarted.Sound := by
  refine .outside ?_ rfl rfl rfl rfl
  unfold Entry.restarted
  dsimp only
  split
  · nofun
  · next hstate => exact hstate

theorem Entry.loaded_restarted {e : Entry} (h : e.restarted.loaded = true) : e.loaded = true := by
  simp only [Entry.loaded, Entry.restarted, ne_eq, decide_not, Bool.not_eq_true', decide_eq_false_iff_not] at h ⊢
  intro hunloaded
  simp [hunloaded] at h

theorem State.Roster.restartAdmissions (h : s.Roster A) : s.restartAdmissions.Roster A := by
  have hread (e : Nat) : s.restartAdmissions.entry e = (s.entry e).restarted := h.entries.get_mapAll rfl e
  refine .of_vacant (h.positions.mapAll _) (h.entries.mapAll _) (fun p => ?_) (fun e => ?_) ?_ fun e f he hf hsame => ?_
  · have hposition : s.restartAdmissions.position p = (s.position p).restarted := h.positions.get_mapAll rfl p
    rw [hposition]
    exact ⟨rfl, rfl⟩
  · rw [hread]
    exact ⟨(s.entry e).sound_restarted, rfl, rfl⟩
  · refine List.filter_eq_nil_iff.2 fun i hi => ?_
    simp only [State.items, State.restartAdmissions, List.nil_append, List.map_map, List.mem_append, List.mem_map] at hi
    obtain ⟨f, -, rfl⟩ | ⟨f, -, rfl⟩ := hi
    · nofun
    · nofun
  · rw [hread] at he hf
    rw [hread, hread] at hsame
    exact h.identities e f (Entry.loaded_restarted he) (Entry.loaded_restarted hf) hsame

end Sys2Proof.Machine
end

section
/-! The laws of admissions under every command (R54, R55, R57 to R63, R75, R81, R82, R84, R88, R90, R91). -/

namespace Sys2Proof.Machine

variable {s t : State} {A : Set Nat}

/-! ### The entry that holds an identity (R55, R57) -/

/-- A record that is not the reset record is listed. -/
theorem Table.Canonical.mem_of_get {α : Type} [DecidableEq α] {d : α} {t : Table α} (h : Table.Canonical d t) {i : Nat}
    (hi : Table.get d t i ≠ d) : (i, Table.get d t i) ∈ t := by
  obtain ⟨n, hn⟩ := h
  exact (Table.mem_iff hn i _).2 ⟨rfl, hi⟩

/-- A loaded entry is listed. -/
theorem State.mem_entries_of_loaded (h : Table.Canonical {} s.entries) {e : Nat} (he : (s.entry e).loaded = true) :
    (e, s.entry e) ∈ s.entries :=
  h.mem_of_get fun hreset => by rw [State.entry, hreset] at he; nomatch he

/-- The search for an identity finds a loaded entry that holds it. -/
theorem State.findIdentity_some (h : Table.Canonical {} s.entries) {identity e : Nat}
    (hfound : s.findIdentity identity = some e) : (s.entry e).loaded = true ∧ (s.entry e).identity = identity := by
  rw [State.findIdentity, Option.map_eq_some_iff] at hfound
  obtain ⟨x, hx, rfl⟩ := hfound
  have hread : s.entry x.1 = x.2 := h.get_of_mem (List.mem_of_find?_eq_some hx)
  have hheld := List.find?_some hx
  rw [Bool.and_eq_true, decide_eq_true_eq] at hheld
  rw [hread]
  exact hheld

/-- The search finds nothing only where no loaded entry holds the identity. -/
theorem State.findIdentity_none (h : Table.Canonical {} s.entries) {identity : Nat}
    (hnone : s.findIdentity identity = none) (e : Nat) (he : (s.entry e).loaded = true) :
    (s.entry e).identity ≠ identity := by
  rw [State.findIdentity, Option.map_eq_none_iff, List.find?_eq_none] at hnone
  have hmiss := hnone _ (State.mem_entries_of_loaded h he)
  simpa [he] using hmiss

theorem State.identityTaken_iff (h : Table.Canonical {} s.entries) (e identity : Nat) :
    s.identityTaken e identity = true ↔ s.identityElsewhere e identity := by
  simp only [State.identityTaken, List.any_eq_true, Bool.and_eq_true, decide_eq_true_eq, and_assoc]
  constructor
  · rintro ⟨x, hx, hne, hheld⟩
    have hread : s.entry x.1 = x.2 := h.get_of_mem hx
    exact ⟨x.1, hne, by rw [hread]; exact hheld⟩
  · rintro ⟨f, hne, hloaded, hid⟩
    exact ⟨_, State.mem_entries_of_loaded h hloaded, hne, hloaded, hid⟩

/-! ### Line cells (chapter 5) -/

/-- The kind that a SIGN-ON gives its candidate is the one that the entry allows (R82). -/
theorem State.kindAgrees_candidateKind {e p : Nat} (hloaded : (s.entry e).loaded = true)
    (hbarred : (s.entry e).state ≠ .barred) (challenge : FrameNumber) (stage : Stage) :
    (s.entry e).kindAgrees ⟨p, s.candidateKind e p, challenge, stage⟩ := by
  have hunloaded : (s.entry e).state ≠ .unloaded := of_decide_eq_true hloaded
  unfold State.candidateKind
  cases hstate : (s.entry e).state with
  | unloaded => exact absurd hstate hunloaded
  | barred => exact absurd hstate hbarred
  | absent => exact hstate
  | admitted =>
    dsimp only
    split
    · next hhome => exact ⟨hstate, hhome⟩
    · next hhome => exact ⟨hstate, hhome⟩

theorem State.Roster.signOnEntry (h : s.Roster ∅) {p e : Nat} (hfree : (s.position p).pending = none)
    (hloaded : (s.entry e).loaded = true) : (s.signOnEntry p e).Roster ∅ := by
  unfold State.signOnEntry
  split
  · exact h.rejectWithBackoff p _
  · next hbarred =>
    split
    · exact h.rejectWithBackoff p _
    · split
      · exact h.rejectWithBackoff p _
      · next hnone =>
        exact h.createCandidate (Set.notMem_empty e) (not_ne_iff.1 hnone) hfree
          (State.kindAgrees_candidateKind hloaded hbarred)

theorem State.Roster.signOnAt (h : s.Roster ∅) (p identity : Nat) : (s.signOnAt p identity).Roster ∅ := by
  unfold State.signOnAt State.signOnFree
  split
  · exact h.replyTo _ _
  · split
    · exact h.waitWithBackoff p
    · split
      · exact h.rejectWithBackoff p _
      · next hfree =>
        split
        · exact (h.rejectWithBackoff p _).report _
        · next e hfound =>
          exact h.signOnEntry (not_ne_iff.1 hfree) (State.findIdentity_some h.entries hfound).1

/-- A live item is added for an entry that holds its candidate and has no other (R92, R95). -/
theorem State.Roster.addItem (h : s.Roster A) {i : VerifyItem} (hcandidate : s.itemHasCandidate i)
    (hidle : ∀ k ∈ s.liveItems, k.entry ≠ i.entry) (pause : Bool) :
    State.Roster { s with verifyQueue := s.verifyQueue ++ [i], verifyPause := pause } A := by
  have hperm : (State.items { s with verifyQueue := s.verifyQueue ++ [i], verifyPause := pause }).Perm
      (i :: s.items) := by
    simp only [State.items, List.append_assoc, List.singleton_append]
    exact List.perm_middle
  have hlive := hperm.filter fun k => !k.isVoid
  refine ⟨h.positions, h.entries, h.sound, h.owners, h.pendings, ⟨fun k hk => ?_, ?_⟩, h.identities⟩
  · rw [State.liveItems, hlive.mem_iff, List.mem_filter, List.mem_cons] at hk
    obtain ⟨rfl | hk, hvoid⟩ := hk
    · exact hcandidate
    · exact h.items.1 k (List.mem_filter.2 ⟨hk, hvoid⟩)
  · refine ((hlive.map VerifyItem.entry).nodup_iff).2 ?_
    rw [List.filter_cons]
    split
    · rw [List.map_cons, List.nodup_cons, List.mem_map]
      exact ⟨fun ⟨k, hk, heq⟩ => hidle k hk heq, h.items.2⟩
    · exact h.items.2

/-- An AWAITING candidate becomes QUEUED with its item (R84, R92). -/
theorem State.Roster.appendItem (h : s.Roster ∅) {e : Nat} {c : Candidate} (hc : (s.entry e).candidate = some c)
    (hstage : c.stage ≠ .queued) (response : Response) : (s.appendItem e c c.position response).Roster ∅ := by
  have hidle : ∀ i ∈ s.liveItems, i.entry ≠ e := h.items.idle fun d hd => by
    obtain rfl := Option.some.inj (hc.symm.trans hd)
    exact hstage
  have hsound := h.sound e (Set.notMem_empty e)
  have hqueued : (s.setEntry e { s.entry e with candidate := some { c with stage := .queued } }).Roster ∅ := by
    have hset := h.restage e (v := { s.entry e with candidate := some { c with stage := .queued } }) rfl
      (by rw [hc]; rfl) (.inr hidle) (h.identities.fresh fun hloaded => ⟨hloaded, rfl⟩)
    refine hset.mend ?_
    rw [State.entry_setEntry_self]
    refine ⟨hsound.home, hsound.deadlines, fun hstate => ?_, fun d hd => ?_⟩
    · simpa [Entry.renewing, hc] using hsound.halted hstate
    · obtain rfl := Option.some.inj hd
      exact hsound.kinds c hc
  refine hqueued.addItem (i := ⟨e, c.position, c.challenge, response, false⟩) ?_ hidle _
  rw [State.itemHasCandidate, State.entry_setEntry_self]
  rfl

theorem State.Roster.answerAt (h : s.Roster ∅) (p : Nat) (response : Response) : (s.answerAt p response).Roster ∅ := by
  unfold State.answerAt State.answerFor
  split
  · exact h.replyTo _ _
  · next e hpending =>
    split
    · exact h
    · next c hc =>
      have hp : c.position = p := by
        have hlink := (h.pendings p e).1 hpending
        rw [State.candidateOf, hc] at hlink
        exact Option.some.inj hlink
      split
      · exact h
      · next hstage =>
        split
        · exact h.waitWithBackoff p
        · exact hp ▸ h.appendItem hc (by rw [hstage]; nofun) response

/-- A refresh deadline stored anew in an admission that no RENEW halts (R88). -/
theorem State.Roster.reloadRefresh (h : s.Roster ∅) {p e : Nat} (howner : (s.position p).owner = some e)
    (hkind : ¬ (s.entry e).renewing) : (s.reloadRefresh e).Roster ∅ := by
  have hstate := (h.sound e (Set.notMem_empty e)).state_of_home ((h.owners p e).1 howner)
  exact h.renameEntry e rfl rfl (h.identities.fresh fun hloaded => ⟨hloaded, rfl⟩) fun hold =>
    ⟨hold.home, fun hs => absurd hstate hs, fun _ => ⟨nofun, fun hrenewing => absurd hrenewing hkind⟩, hold.kinds⟩

theorem Entry.not_renewing_of_kind {e : Entry} {c : Candidate} (hc : e.candidate = some c) (hkind : c.kind ≠ .renew) :
    ¬ e.renewing := by
  rintro ⟨d, hd, hrenew⟩
  obtain rfl := Option.some.inj (hc.symm.trans hd)
  exact hkind hrenew

theorem State.Roster.keepaliveAt (h : s.Roster ∅) (p : Nat) : (s.keepaliveAt p).Roster ∅ := by
  unfold State.keepaliveAt State.keepaliveOf
  split
  · exact h.replyTo _ _
  · next e howner =>
    split
    · next hnone => exact h.reloadRefresh howner (Entry.not_renewing hnone)
    · next c hc =>
      split
      · next hkind => exact h.reloadRefresh howner (Entry.not_renewing_of_kind hc (by rw [hkind]; nofun))
      · next hkind => exact h.reloadRefresh howner (Entry.not_renewing_of_kind hc (by rw [hkind]; nofun))
      · split
        · exact h.replyTo _ _
        · exact h

/-- The candidate at a position without an owner is no RENEW, which stands at its entry's home (R82). -/
theorem State.Roster.not_renewing_of_unowned (h : s.Roster ∅) {p e : Nat} (howner : (s.position p).owner = none)
    (hpending : (s.position p).pending = some e) : ¬ (s.entry e).renewing := by
  rintro ⟨c, hc, hrenew⟩
  have hlink := (h.pendings p e).1 hpending
  rw [State.candidateOf, hc] at hlink
  obtain rfl : c.position = p := Option.some.inj hlink
  have hkind := (h.sound e (Set.notMem_empty e)).kinds c hc
  simp only [Entry.kindAgrees, hrenew] at hkind
  exact nomatch howner.symm.trans ((h.owners _ e).2 hkind.2)

/-- After the sign-off of its owner a position has none (R90). -/
theorem State.Roster.signOffOwner (h : s.Roster ∅) {p e : Nat} (howner : (s.position p).owner = some e) :
    (s.signOffOwner p e).Roster ∅ ∧ ((s.signOffOwner p e).position p).owner = none := by
  have hhome : (s.entry e).home = some p := (h.owners p e).1 howner
  have hloaded := Entry.loaded_of_admitted ((h.sound e (Set.notMem_empty e)).state_of_home hhome)
  refine ⟨(h.dropAndEnd (state := .absent) .signedOff hloaded nofun).report _, ?_⟩
  rw [State.signOffOwner, State.position_report, State.owner_endAdmission, State.entry_dropCandidate, if_pos hhome]

theorem State.Roster.signOffAt (h : s.Roster ∅) (p : Nat) : (s.signOffAt p).Roster ∅ := by
  have hdrop {v : State} (hv : v.Roster ∅ ∧ (v.position p).owner = none) :
      State.Roster ((match (v.position p).pending with
        | none => v
        | some e => v.dropCandidate e).replyTo p (.lapsed .signedOff)) ∅ := by
    obtain ⟨hv, hunowned⟩ := hv
    split
    · exact hv.replyTo _ _
    · next e hpending =>
      exact (hv.dropUnhalted (Set.notMem_empty e) (hv.not_renewing_of_unowned hunowned hpending)).replyTo _ _
  unfold State.signOffAt
  cases howner : (s.position p).owner with
  | none => exact hdrop ⟨h, howner⟩
  | some e => exact hdrop (h.signOffOwner howner)

/-! ### Entries, groups and keys (chapter 4) -/

/-- An entry without an admission or a candidate may be loaded with an identity that no other holds (R57). -/
theorem State.Roster.loadEntry (h : s.Roster ∅) {e : Nat} (group identity : Nat) (hstate : (s.entry e).state ≠ .admitted)
    (hnone : (s.entry e).candidate = none) (hfresh : ¬ s.identityElsewhere e identity) :
    (s.setEntry e ((s.entry e).load group identity)).Roster ∅ := by
  refine h.renameEntry e rfl rfl (fun _ f hf hf' hsame => hfresh ⟨f, hf, hf', hsame.symm⟩) fun hold => ?_
  obtain ⟨hrefresh, hrechallenge⟩ := hold.deadlines hstate
  exact .outside (Entry.load_state hstate _ _) (hold.home_none hstate) hnone hrefresh hrechallenge

theorem State.Roster.loadExtension (h : s.Roster ∅) (tag : Byte) (e group identity : Nat) :
    (s.loadExtension tag e group identity).Roster ∅ := by
  unfold State.loadExtension
  split
  · exact h.refuse _ _ _
  · split
    · exact h.refuse _ _ _
    · split
      · exact h.refuse _ _ _
      · next htaken =>
        split
        · exact h.refuse _ _ _
        · next hfree =>
          obtain ⟨hstate, hnone⟩ := not_or.1 hfree
          rw [State.identityTaken_iff h.entries, State.identityElsewhere] at htaken
          have hread := s.entry_accept tag (.entryCommand .loadExtension e)
          rw [← hread] at hstate hnone ⊢
          refine (h.accept _ _).loadEntry group identity hstate (not_ne_iff.1 hnone) ?_
          simpa only [State.identityElsewhere, hread] using htaken

theorem State.Roster.removeEntry (h : s.Roster ∅) {e : Nat} (cause : CloseCause) {state : EntryState}
    (hloaded : (s.entry e).loaded = true) (hstate : state ≠ .admitted) : (s.removeEntry e cause state).Roster ∅ := by
  have hended := h.dropAndEnd cause hloaded hstate
  have hdropped (hbefore : (s.entry e).state ≠ .admitted) : ((s.dropCandidate e).setEntryState e state).Roster ∅ := by
    have hsound := h.sound e (Set.notMem_empty e)
    obtain ⟨hrefresh, hrechallenge⟩ := hsound.deadlines hbefore
    have hset : ((s.dropCandidate e).setEntryState e state).Roster (insert e (insert e ∅)) :=
      (h.dropCandidate e).setEntry e rfl rfl
        ((h.dropCandidate e).identities.fresh fun _ => ⟨by rw [s.entry_dropCandidate]; exact hloaded, rfl⟩)
    rw [Set.insert_idem] at hset
    refine hset.mend ?_
    rw [State.setEntryState, State.entry_setEntry_self, s.entry_dropCandidate]
    exact .outside hstate (hsound.home_none hbefore) rfl hrefresh hrechallenge
  unfold State.removeEntry State.forceOff
  cases hbefore : (s.entry e).state with
  | admitted =>
    dsimp only
    split
    · exact hended
    · exact hended.replyTo _ _
  | absent | barred | unloaded => exact hdropped (by rw [hbefore]; nofun)

theorem State.loaded_accept {tag : Byte} {values : Accepted} {e : Nat} (hstate : (s.entry e).state ≠ .unloaded) :
    ((s.accept tag values).entry e).loaded = true := by
  rw [State.entry_accept]
  exact decide_eq_true hstate

theorem State.Roster.unloadExtension (h : s.Roster ∅) (tag : Byte) (e : Nat) : (s.unloadExtension tag e).Roster ∅ := by
  unfold State.unloadExtension
  split
  · exact h.refuse _ _ _
  · split
    · exact h.refuse _ _ _
    · next hstate =>
      exact ((h.accept _ _).removeEntry (state := .unloaded) _ (State.loaded_accept hstate) nofun).keepEntry e rfl

theorem State.Roster.forceSignOff (h : s.Roster ∅) (tag : Byte) (e : Nat) : (s.forceSignOff tag e).Roster ∅ := by
  unfold State.forceSignOff
  split
  · exact h.refuse _ _ _
  · split
    · exact h.refuse _ _ _
    · next hstate =>
      split
      · exact h.refuse _ _ _
      · exact (h.accept _ _).removeEntry (state := .absent) _ (State.loaded_accept hstate) nofun

theorem State.Roster.barEntry (h : s.Roster ∅) (tag : Byte) (e : Nat) : (s.barEntry tag e).Roster ∅ := by
  unfold State.barEntry
  split
  · exact h.refuse _ _ _
  · split
    · exact h.refuse _ _ _
    · next hstate => exact (h.accept _ _).removeEntry (state := .barred) _ (State.loaded_accept hstate) nofun

/-- A BARRED entry holds no candidate (R54). -/
theorem Entry.Sound.candidate_none_of_barred {e : Entry} (h : e.Sound) (hstate : e.state = .barred) :
    e.candidate = none := by
  by_contra hsome
  obtain ⟨c, hc⟩ := Option.ne_none_iff_exists'.1 hsome
  have hkind := h.kinds c hc
  unfold Entry.kindAgrees at hkind
  rw [hstate] at hkind
  split at hkind
  · nomatch hkind
  · exact nomatch hkind.1
  · exact nomatch hkind.1

theorem State.Roster.unbarEntry (h : s.Roster ∅) (tag : Byte) (e : Nat) : (s.unbarEntry tag e).Roster ∅ := by
  unfold State.unbarEntry
  split
  · exact h.refuse _ _ _
  · split
    · exact h.refuse _ _ _
    · next hbarred =>
      rw [← s.entry_accept tag (.entryCommand .unbar e)] at hbarred ⊢
      have hstate := not_ne_iff.1 hbarred
      refine (h.accept _ _).renameEntry e rfl rfl
        ((h.accept _ _).identities.fresh fun _ => ⟨by rw [Entry.loaded, hstate]; rfl, rfl⟩) fun hold => ?_
      obtain ⟨hrefresh, hrechallenge⟩ := hold.deadlines (by rw [hstate]; nofun)
      exact .outside nofun (hold.home_none (by rw [hstate]; nofun)) (hold.candidate_none_of_barred hstate) hrefresh
        hrechallenge

theorem State.Roster.setGroupLimits (h : s.Roster A) (tag : Byte) (g budget limit : Nat) :
    (s.setGroupLimits tag g budget limit).Roster A := by
  unfold State.setGroupLimits
  split
  · exact h.refuse _ _ _
  · exact (h.accept _ _).elsewhere rfl

theorem State.Roster.setGroupTimes (h : s.Roster A) (tag : Byte) (g refresh rechallenge : Nat) :
    (s.setGroupTimes tag g refresh rechallenge).Roster A := by
  unfold State.setGroupTimes
  split
  · exact h.refuse _ _ _
  · exact (h.accept _ _).elsewhere rfl

theorem State.Roster.reportBroken (h : s.Roster A) (broken : Option PairHalf) : (s.reportBroken broken).Roster A := by
  unfold State.reportBroken
  split
  · exact h
  · exact h.report _

theorem State.Roster.secretHalf (h : s.Roster A) (tag : Byte) (half : Half) (e : Nat) (first second : KeyWord) :
    (s.secretHalf tag half e first second).Roster A := by
  unfold State.secretHalf
  split
  · exact h.refuse _ _ _
  · split
    · exact h.refuse _ _ _
    · have hset (secret : Option Key) : (s.setEntry e { s.entry e with secret := secret }).Roster A := h.keepEntry e rfl
      exact (State.Roster.accept ((hset _).elsewhere (by rfl)) _ _).reportBroken _

theorem State.Roster.stagedHalf (h : s.Roster A) (tag : Byte) (half : Half) (j : Nat) (first second : KeyWord) :
    (s.stagedHalf tag half j first second).Roster A := by
  unfold State.stagedHalf
  split
  · exact h.refuse _ _ _
  · split
    · exact h.refuse _ _ _
    · exact (State.Roster.accept (h.elsewhere (by rfl)) _ _).reportBroken _

end Sys2Proof.Machine
end

section
/-! Every command keeps the laws of admissions, and the three statements that are read off them. -/

namespace Sys2Proof.Machine

variable {s t : State} {A : Set Nat}

/-! ### Calls, paths and playout (R49, R50, R117, R118, R121, R156 to R159) -/

/-- An OPEN CALL writes the contexts of a position and an entry, which the laws do not read (R118). -/
theorem State.Roster.openContext (h : s.Roster A) (tag : Byte) (j p e : Nat) (loop : Bool) (key : Key) :
    (s.openContext tag j p e loop key).Roster A := by
  have hopened : (s.setPosition p ((s.position p).opened j)).Roster A := h.keepPosition p rfl rfl
  have hjoined := hopened.keepEntry e (v := { s.entry e with context := some j }) rfl
  exact State.Roster.accept (hjoined.elsewhere (by rfl)) _ _

theorem State.Roster.openCall (h : s.Roster A) (tag : Byte) (j p loopFlag : Nat) :
    (s.openCall tag j p loopFlag).Roster A := by
  unfold State.openCall State.openCallAt
  split
  · exact h.refuse _ _ _
  · split
    · exact h.refuse _ _ _
    · split
      · exact h.refuse _ _ _
      · split
        · exact h.refuse _ _ _
        · split
          · exact h.refuse _ _ _
          · split
            · exact h.refuse _ _ _
            · split
              · exact h.refuse _ _ _
              · split
                · exact h.refuse _ _ _
                · split
                  · exact h.refuse _ _ _
                  · exact h.openContext _ _ _ _ _ _

theorem State.Roster.closeCall (h : s.Roster A) (tag : Byte) (j : Nat) : (s.closeCall tag j).Roster A := by
  unfold State.closeCall
  split
  · exact h.refuse _ _ _
  · exact (h.accept _ _).closeContext _ _

theorem State.Roster.setPositionTreatment (h : s.Roster A) (tag : Byte) (p treatment toneChannel : Nat) :
    (s.setPositionTreatment tag p treatment toneChannel).Roster A := by
  unfold State.setPositionTreatment
  split
  · exact h.refuse _ _ _
  · split
    · exact h.refuse _ _ _
    · split
      · exact h.refuse _ _ _
      · split
        · exact h.refuse _ _ _
        · rw [← s.position_accept tag (.setPositionTreatment p)]
          exact (h.accept _ _).keepPosition p rfl rfl

theorem Position.bonds_gained (pos : Position) (direction : Direction) (gain : Nat) :
    (pos.gained direction gain).owner = pos.owner ∧ (pos.gained direction gain).pending = pos.pending := by
  cases direction with
  | up | down | both => exact ⟨rfl, rfl⟩

theorem State.Roster.setPositionGain (h : s.Roster A) (tag : Byte) (p direction gain : Nat) :
    (s.setPositionGain tag p direction gain).Roster A := by
  unfold State.setPositionGain
  split
  · exact h.refuse _ _ _
  · split
    · exact h.refuse _ _ _
    · next d _ =>
      obtain ⟨howner, hpending⟩ := (s.position p).bonds_gained d (min 512 gain)
      rw [← s.position_accept tag (.setPositionGain p d (min 512 gain))] at howner hpending ⊢
      exact (h.accept _ _).keepPosition p howner hpending

theorem State.Roster.loadPattern (h : s.Roster A) (tag : Byte) (a : Nat) (c0 c1 c2 c3 : Byte) :
    (s.loadPattern tag a c0 c1 c2 c3).Roster A := by
  unfold State.loadPattern
  split
  · exact h.refuse _ _ _
  · exact State.Roster.accept (h.elsewhere (by rfl)) _ _

theorem State.Roster.setPlayout (h : s.Roster A) (tag : Byte) (c repeats mode start length : Nat) :
    (s.setPlayout tag c repeats mode start length).Roster A := by
  unfold State.setPlayout
  split
  · exact h.refuse _ _ _
  · split
    · exact h.refuse _ _ _
    · split
      · exact h.refuse _ _ _
      · exact State.Roster.accept (h.elsewhere (by rfl)) _ _

theorem State.Roster.stopPlayout (h : s.Roster A) (tag : Byte) (c : Nat) : (s.stopPlayout tag c).Roster A := by
  unfold State.stopPlayout
  split
  · exact h.refuse _ _ _
  · exact State.Roster.accept (h.elsewhere (by rfl)) _ _

/-! ### SET DEVICE, READ and RESTART (R168 to R170) -/

theorem State.Roster.setDevice (h : s.Roster A) (tag : Byte) (n value : Nat) : (s.setDevice tag n value).Roster A := by
  unfold State.setDevice
  split
  · exact h.refuse _ _ _
  · split
    · exact h.refuse _ _ _
    · split
      · exact h.refuse _ _ _
      · exact State.Roster.accept (h.elsewhere (by rfl)) _ _

theorem State.Roster.readPage (h : s.Roster A) (tag : Byte) (kind index part : Nat) :
    (s.readPage tag kind index part).Roster A := by
  unfold State.readPage
  split
  · exact h.refuse _ _ _
  · split
    · exact h.refuse _ _ _
    · split
      · exact h.refuse _ _ _
      · exact State.Roster.joinCell (h.elsewhere (by rfl)) _ _

theorem State.Roster.restart (h : s.Roster A) (tag : Byte) (scope : Nat) : (s.restart tag scope).Roster A := by
  unfold State.restart
  split
  · exact h.refuse _ _ _
  · exact (h.restartCalls.report _).accept _ _
  · exact (h.restartCalls.restartAdmissions.report _).accept _ _

/-! ### The commands -/

/-- A command that acts only while the pulse is not absent. -/
theorem State.Roster.of_whilePulsed (h : s.Roster ∅) {effect : State → State} (hnext : s.whilePulsed effect = .next t)
    (he : (effect s).Roster ∅) : t.Roster ∅ := by
  obtain rfl := Host.Outcome.next.inj hnext
  split
  · exact h
  · exact he

/-- A management cell, which acts on what the boundary leaves. -/
theorem State.Roster.of_managementCell (h : s.Roster ∅) {effect : State → State}
    (hnext : s.managementCell effect = .next t) (he : ∀ v, v.Roster ∅ → (effect v).Roster ∅) : t.Roster ∅ :=
  h.of_whilePulsed hnext (he _ h.finishBoundary)

/-- A line cell, which acts on what the boundary leaves, if its slot is a speech slot. -/
theorem State.Roster.of_lineCell (h : s.Roster ∅) {highway slot : Nat} {effect : Nat → State → State}
    (hnext : s.lineCell highway slot effect = .next t) (he : ∀ p v, v.Roster ∅ → (effect p v).Roster ∅) :
    t.Roster ∅ := by
  refine h.of_whilePulsed hnext ?_
  split
  · exact he _ _ h.finishBoundary
  · exact h

/-- Every command keeps the laws of admissions. -/
theorem State.Roster.exec (h : s.Roster ∅) {c : Instr} (hnext : exec c s = .next t) : t.Roster ∅ := by
  cases c
  all_goals simp only [Machine.exec] at hnext
  case hardwareReset => obtain rfl := Host.Outcome.next.inj hnext; exact .reset s
  case firstFramePulse => obtain rfl := Host.Outcome.next.inj hnext; exact h.framePulse false
  case frameBoundary cutShort => obtain rfl := Host.Outcome.next.inj hnext; exact h.framePulse cutShort
  case framePulseAbsent loss =>
    unfold execFramePulseAbsent at hnext
    split at hnext
    all_goals obtain rfl := Host.Outcome.next.inj hnext; exact h.elsewhere rfl
  case lineIdle | lineCellDiscarded | managementIdle => obtain rfl := Host.Outcome.next.inj hnext; exact h
  case secondCountAdvance => exact h.of_whilePulsed hnext h.takeSecond
  case verificationTake => exact h.of_whilePulsed hnext h.takeVerifications
  case verificationComplete => exact h.of_whilePulsed hnext h.complete
  case lineReplySend => exact h.of_whilePulsed hnext (h.takeLineCell _)
  case reportSend => exact h.of_whilePulsed hnext h.takeReport
  case upstreamArrival position arrival =>
    cases arrival with
    | carried code => exact h.of_whilePulsed hnext (h.upstreamCarried _ _)
    | supplied => exact h.of_whilePulsed hnext (h.supplyUp _)
  case downstreamArrival position arrival =>
    cases arrival with
    | carried code => exact h.of_whilePulsed hnext (h.downstreamCarried _ _)
    | supplied => exact h.of_whilePulsed hnext (h.supplyDown _)
  case txFrameAdvance => exact h.of_whilePulsed hnext (h.takeTx _)
  case playoutAdvance => exact h.of_whilePulsed hnext (h.takePlayout _)
  case holdOffDeadline => exact h.of_whilePulsed hnext (h.takeHoldOff _)
  case answerDeadline => exact h.of_whilePulsed hnext (h.takeAnswerDeadline _)
  case refreshLapse => exact h.of_whilePulsed hnext (h.takeRefresh _)
  case rechallengeDeadline => exact h.of_whilePulsed hnext (h.takeRechallenge _)
  case waitingCodeSent => exact h.of_whilePulsed hnext (h.driveSlot _ _)
  case signOn => exact h.of_lineCell hnext fun _ _ hv => hv.signOnAt _ _
  case answer => exact h.of_lineCell hnext fun _ _ hv => hv.answerAt _ _
  case keepalive => exact h.of_lineCell hnext fun _ _ hv => hv.keepaliveAt _
  case signOff => exact h.of_lineCell hnext fun _ _ hv => hv.signOffAt _
  case unknownKind => exact h.of_managementCell hnext fun _ hv => hv.refuse _ _ _
  case loadExtension => exact h.of_managementCell hnext fun _ hv => hv.loadExtension _ _ _ _
  case unloadExtension => exact h.of_managementCell hnext fun _ hv => hv.unloadExtension _ _
  case secretHalf => exact h.of_managementCell hnext fun _ hv => hv.secretHalf _ _ _ _ _
  case forceSignOff => exact h.of_managementCell hnext fun _ hv => hv.forceSignOff _ _
  case bar => exact h.of_managementCell hnext fun _ hv => hv.barEntry _ _
  case unbar => exact h.of_managementCell hnext fun _ hv => hv.unbarEntry _ _
  case setGroupLimits => exact h.of_managementCell hnext fun _ hv => hv.setGroupLimits _ _ _ _
  case setGroupTimes => exact h.of_managementCell hnext fun _ hv => hv.setGroupTimes _ _ _ _
  case stagedHalf => exact h.of_managementCell hnext fun _ hv => hv.stagedHalf _ _ _ _ _
  case openCall => exact h.of_managementCell hnext fun _ hv => hv.openCall _ _ _ _
  case closeCall => exact h.of_managementCell hnext fun _ hv => hv.closeCall _ _
  case setPositionTreatment => exact h.of_managementCell hnext fun _ hv => hv.setPositionTreatment _ _ _ _
  case setPositionGain => exact h.of_managementCell hnext fun _ hv => hv.setPositionGain _ _ _ _
  case loadPattern => exact h.of_managementCell hnext fun _ hv => hv.loadPattern _ _ _ _ _ _
  case setPlayout => exact h.of_managementCell hnext fun _ hv => hv.setPlayout _ _ _ _ _ _
  case stopPlayout => exact h.of_managementCell hnext fun _ hv => hv.stopPlayout _ _
  case setDevice => exact h.of_managementCell hnext fun _ hv => hv.setDevice _ _ _
  case read => exact h.of_managementCell hnext fun _ hv => hv.readPage _ _ _ _
  case restartCalls => exact h.of_managementCell hnext fun _ hv => hv.restart _ _
  case restartAll => exact h.of_managementCell hnext fun _ hv => hv.restart _ _

/-- A step keeps the laws of admissions. -/
theorem State.Roster.step (h : s.Roster ∅) (hnext : step s = .next t) : t.Roster ∅ := by
  unfold Machine.step at hnext
  split at hnext
  · obtain rfl := Host.Outcome.next.inj hnext
    exact h
  · exact State.Roster.exec (h.elsewhere (by rfl)) hnext

/-- Settles O57: tables that agree satisfy the laws of admissions, which a step keeps and which give both parts back. -/
theorem everyStepKeepsAdmissions : Obligations.EveryStepKeepsAdmissions := fun _ _ hwf hagrees hstep =>
  have hroster := (State.Roster.of_agrees hwf hagrees).step hstep
  ⟨hroster.homesAgree, hroster.deadlinesAgree⟩

/-- Settles O58, from the same laws. -/
theorem everyStepKeepsCandidates : Obligations.EveryStepKeepsCandidates :=
  ⟨fun _ _ hwf hagrees hstep => ((State.Roster.of_agrees hwf hagrees).step hstep).candidatesAgree,
    fun _ _ hwf hagrees hstep => ((State.Roster.of_agrees hwf hagrees).step hstep).items⟩

/-- Settles O60, from the same laws. -/
theorem everyStepKeepsIdentities : Obligations.EveryStepKeepsIdentities := fun _ _ hwf hagrees hstep =>
  ((State.Roster.of_agrees hwf hagrees).step hstep).identities

end Sys2Proof.Machine
end

section
/-! SIGN-ON, and the management cells of entries, groups and the Pair Buffer (R55 to R57, R62, R67, R68, R81, R82, R124,
R166, R167): each is read off the effect of its cell, since a cell in a frame acts at once. -/

namespace Sys2Proof.Machine

variable {s : State}

theorem State.entries_canonical (h : s.wf = true) : Table.Canonical {} s.entries := by
  obtain ⟨-, hentries, -⟩ := State.restartTables_wf h
  exact ⟨_, hentries⟩

/-! ### SIGN-ON (R81, R82) -/

/-- The search for an identity finds its only holder (R55). -/
theorem State.findIdentity_of_held (h : Table.Canonical {} s.entries) (hunique : s.identitiesUnique) {e identity : Nat}
    (hloaded : (s.entry e).loaded = true) (hheld : (s.entry e).identity = identity) :
    s.findIdentity identity = some e := by
  cases hfound : s.findIdentity identity with
  | none => exact absurd hheld (State.findIdentity_none h hfound e hloaded)
  | some f =>
    obtain ⟨hf, hid⟩ := State.findIdentity_some h hfound
    rw [hunique f e hf hloaded (hid.trans hheld.symm)]

theorem State.findIdentity_of_not_held (h : Table.Canonical {} s.entries) {identity : Nat}
    (hnone : ∀ e, (s.entry e).loaded = true → (s.entry e).identity ≠ identity) : s.findIdentity identity = none := by
  cases hfound : s.findIdentity identity with
  | none => rfl
  | some f =>
    obtain ⟨hf, hid⟩ := State.findIdentity_some h hfound
    exact absurd hid (hnone f hf)

theorem exec_signOn (hframe : s.inFrame) (h : Fin 4) {slot p : Nat} (identity : Nat) (hslot : slot < 120)
    (hp : p = 120 * h.val + slot) : exec (.signOn h slot identity) s = .next (s.signOnAt p identity) := by
  subst hp
  exact State.lineCell_inFrame hframe hslot h.val fun p v => v.signOnAt p identity

/-- A SIGN-ON that passes checks 1 to 3 for an identity that no entry holds (R81). -/
theorem State.signOnAt_unknown {p identity : Nat} (hholdOff : (s.position p).holdOff = none)
    (hverify : s.verifyPause = false) (hreport : s.reportPause = false) (hpending : (s.position p).pending = none)
    (hfound : s.findIdentity identity = none) :
    s.signOnAt p identity = (s.rejectWithBackoff p .unknown).report (.unknownIdentity identity p) := by
  simp only [State.signOnAt, hholdOff, State.signOnFree, hverify, hreport, Bool.or_self, Bool.false_eq_true, if_false,
    hpending, ne_eq, not_true_eq_false, hfound]

/-- A SIGN-ON that passes checks 1 to 3 and finds the entry that holds the identity (R81). -/
theorem State.signOnAt_found {p identity e : Nat} (hholdOff : (s.position p).holdOff = none)
    (hverify : s.verifyPause = false) (hreport : s.reportPause = false) (hpending : (s.position p).pending = none)
    (hfound : s.findIdentity identity = some e) : s.signOnAt p identity = s.signOnEntry p e := by
  simp only [State.signOnAt, hholdOff, State.signOnFree, hverify, hreport, Bool.or_self, Bool.false_eq_true, if_false,
    hpending, ne_eq, not_true_eq_false, hfound]

/-- The kind of a candidate, by what the entry's state and home say of it (R82). -/
theorem State.candidateKind_eq {e p : Nat} {kind : CandidateKind} (hloaded : (s.entry e).loaded = true)
    (hbarred : (s.entry e).state ≠ .barred) (hfirst : (s.entry e).state = .absent → kind = .first)
    (hrenew : (s.entry e).state = .admitted → (s.entry e).home = some p → kind = .renew)
    (hmove : (s.entry e).state = .admitted → (s.entry e).home ≠ some p → kind = .move) :
    s.candidateKind e p = kind := by
  unfold State.candidateKind
  cases hstate : (s.entry e).state with
  | unloaded => exact absurd hstate (of_decide_eq_true hloaded)
  | barred => exact absurd hstate hbarred
  | absent => exact (hfirst hstate).symm
  | admitted =>
    dsimp only
    split
    · next hhome => exact (hrenew hstate hhome).symm
    · next hhome => exact (hmove hstate hhome).symm

/-- Settles O24: the checks are those of the effect in their order, and the identity's only holder is the entry found. -/
theorem signOnIsChecked : Obligations.SignOnIsChecked := by
  refine ⟨fun h slot identity p s hwf hframe hslot hp => ?_,
    fun h slot identity p e s hwf hunique hframe hslot hp hholdOff hverify hreport hpending hloaded hheld => ?_⟩
  · rw [exec_signOn hframe h identity hslot hp]
    refine ⟨fun deadline hdeadline => ?_, fun hholdOff hpause => ?_, fun hholdOff hverify hreport hpending => ?_,
      fun hholdOff hverify hreport hpending hnone => ?_⟩
    · rw [State.signOnAt, hdeadline]; rfl
    · have hpaused : (s.verifyPause || s.reportPause) = true := by simpa using hpause
      rw [State.signOnAt, hholdOff, State.signOnFree, if_pos hpaused]; rfl
    · simp only [State.signOnAt, hholdOff, State.signOnFree, hverify, hreport, Bool.or_self, Bool.false_eq_true,
        if_false, if_pos hpending]
      rfl
    · rw [State.signOnAt_unknown hholdOff hverify hreport hpending
        (State.findIdentity_of_not_held (State.entries_canonical hwf) hnone)]
      rfl
  · rw [exec_signOn hframe h identity hslot hp, State.signOnAt_found hholdOff hverify hreport hpending
      (State.findIdentity_of_held (State.entries_canonical hwf) hunique hloaded hheld)]
    dsimp only [State.signOnEntry]
    refine ⟨fun hbarred => ?_, fun hbarred hsecret => ?_, fun hbarred hsecret hcandidate => ?_,
      fun kind hbarred hsecret hcandidate hfirst hrenew hmove => ?_⟩
    · rw [if_pos hbarred]; rfl
    · rw [if_neg hbarred, if_pos hsecret]; rfl
    · rw [if_neg hbarred, if_neg hsecret, if_pos hcandidate]; rfl
    · rw [if_neg hbarred, if_neg hsecret, if_neg (not_ne_iff.2 hcandidate),
        State.candidateKind_eq hloaded hbarred hfirst hrenew hmove, State.createCandidate_eq]

/-! ### LOAD EXTENSION (R57) -/

theorem exec_loadExtension (h : s.inFrame) (tag : Byte) (e group identity : Nat) :
    exec (.loadExtension tag e group identity) s = .next (s.loadExtension tag e group identity) :=
  State.managementCell_inFrame h fun v => v.loadExtension tag e group identity

/-- What a load leaves of an entry that is not ADMITTED (R57). -/
theorem Entry.load_eq {e : Entry} (h : e.state ≠ .admitted) (group identity : Nat) :
    e.load group identity =
      { e with
        identity := identity, group := group
        secret := if e.identity = identity then e.secret else none
        state := if e.state = .barred then .barred else .absent
        failures := if e.state = .unloaded then 0 else e.failures } := by
  unfold Entry.load
  simp only [eq_comm (a := identity)]
  cases hstate : e.state with
  | admitted => exact absurd hstate h
  | unloaded | absent | barred => rfl

/-- Settles O28: the checks are those of the effect in their order. -/
theorem loadExtensionWritesEntry : Obligations.LoadExtensionWritesEntry := by
  intro tag e group identity s hwf hframe he
  have htaken := State.identityTaken_iff (State.entries_canonical hwf) e identity
  rw [exec_loadExtension hframe, State.loadExtension, if_neg (Nat.not_lt.2 he)]
  refine ⟨fun hid => ?_, fun hid helsewhere => ?_, fun hid hfree hbusy => ?_, fun hid hfree hstate hcandidate => ?_⟩
  · rw [if_pos hid]; rfl
  · rw [if_neg (Nat.not_lt.2 hid), if_pos (htaken.2 helsewhere)]; rfl
  · rw [if_neg (Nat.not_lt.2 hid), if_neg (mt htaken.1 hfree), if_pos hbusy]; rfl
  · rw [if_neg (Nat.not_lt.2 hid), if_neg (mt htaken.1 hfree), if_neg (not_or.2 ⟨hstate, not_ne_iff.2 hcandidate⟩),
      Entry.load_eq hstate]
    rfl

/-! ### UNBAR (R62) -/

/-- Settles O29. -/
theorem unbarMakesAbsent : Obligations.UnbarMakesAbsent := by
  intro tag e s hframe
  have hcell : exec (.unbar tag e) s = .next (s.unbarEntry tag e) :=
    State.managementCell_inFrame hframe fun v => v.unbarEntry tag e
  rw [hcell, State.unbarEntry]
  refine ⟨fun he => ?_, fun he hstate => ?_, fun he hstate => ?_⟩
  · rw [if_pos he]; rfl
  · rw [if_neg (Nat.not_lt.2 he), if_pos hstate]; rfl
  · rw [if_neg (Nat.not_lt.2 he), if_neg (not_ne_iff.2 hstate)]; rfl

/-! ### SET GROUP LIMITS and SET GROUP TIMES (R67, R68) -/

/-- A budget is applied within the in-use count and 256 (R67). -/
theorem appliedBudget_spec {inUse : Nat} (budget : Nat) (h : inUse ≤ 256) :
    (256 < budget → appliedBudget inUse budget = 256) ∧ (budget < inUse → appliedBudget inUse budget = inUse) ∧
      (inUse ≤ budget → budget ≤ 256 → appliedBudget inUse budget = budget) := by
  unfold appliedBudget
  omega

/-- A failure limit is applied within 1 and 7 (R67). -/
theorem appliedFailureLimit_spec (limit : Nat) :
    (limit = 0 → appliedFailureLimit limit = 1) ∧ (7 < limit → appliedFailureLimit limit = 7) ∧
      (1 ≤ limit → limit ≤ 7 → appliedFailureLimit limit = limit) := by
  unfold appliedFailureLimit
  omega

/-- Settles O32: the values applied are clamped between their bounds. -/
theorem groupValuesAreClamped : Obligations.GroupValuesAreClamped := by
  refine ⟨fun tag g budget limit s hframe => ?_, fun tag g refresh rechallenge s hframe => ?_⟩
  · have hcell : exec (.setGroupLimits tag g budget limit) s = .next (s.setGroupLimits tag g budget limit) :=
      State.managementCell_inFrame hframe fun v => v.setGroupLimits tag g budget limit
    rw [hcell, State.setGroupLimits]
    refine ⟨fun hg => by rw [if_pos hg]; rfl, fun hg hinUse => ?_⟩
    obtain ⟨hlarge, hsmall, hkept⟩ := appliedBudget_spec budget hinUse
    rw [if_neg (Nat.not_lt.2 hg)]
    exact ⟨_, _, rfl, hlarge, hsmall, hkept, appliedFailureLimit_spec limit⟩
  · have hcell : exec (.setGroupTimes tag g refresh rechallenge) s = .next (s.setGroupTimes tag g refresh rechallenge) :=
      State.managementCell_inFrame hframe fun v => v.setGroupTimes tag g refresh rechallenge
    rw [hcell, State.setGroupTimes]
    refine ⟨fun hg => by rw [if_pos hg]; rfl, fun hg => ?_⟩
    rw [if_neg (Nat.not_lt.2 hg)]
    refine ⟨max 1 (min 4095 refresh), min 32767 rechallenge, rfl, ?_⟩
    omega

/-! ### The Pair Buffer (R56, R124, R166, R167) -/

/-- What a new half makes of the half held before: whether it completes the pair, the key the two join to, what the buffer
holds afterwards and the half that is broken (R167). -/
structure PairHalf.Meets (new : PairHalf) (old : Option PairHalf) (completes : Bool) (joined : Option Key)
    (leaves breaks : Option PairHalf) : Prop where
  completes : new.completes old = completes
  joined : new.joined old = joined
  leaves : new.leaves old = leaves
  breaks : new.breaks old = breaks

theorem PairHalf.Meets.of_completes {new : PairHalf} {old : Option PairHalf} {completes : Bool} {breaks : Option PairHalf}
    (hcompletes : new.completes old = completes) (hbreaks : new.breaks old = breaks) :
    new.Meets old completes (if completes then old.map (joinHalves new) else none) (if completes then none else some new)
      breaks :=
  ⟨hcompletes, by rw [PairHalf.joined, hcompletes], by rw [PairHalf.leaves, hcompletes], hbreaks⟩

/-- The other half of the same target completes the pair. -/
theorem PairHalf.meets_other {half other : Half} (hne : other ≠ half) (target : PairTarget) (a b c d : KeyWord) :
    PairHalf.Meets ⟨target, half, a, b⟩ (some ⟨target, other, c, d⟩) true
      (some (joinHalves ⟨target, half, a, b⟩ ⟨target, other, c, d⟩)) none none :=
  .of_completes (by simp [PairHalf.completes, hne]) (by simp [PairHalf.breaks])

/-- No half, or the same half of the same target, is replaced. -/
theorem PairHalf.meets_same {new : PairHalf} {old : Option PairHalf}
    (h : old = none ∨ ∃ c d, old = some ⟨new.target, new.half, c, d⟩) : new.Meets old false none (some new) none := by
  obtain rfl | ⟨c, d, rfl⟩ := h
  · exact .of_completes rfl rfl
  · exact .of_completes (by simp [PairHalf.completes]) (by simp [PairHalf.breaks])

/-- A half for another target is broken. -/
theorem PairHalf.meets_foreign {new held : PairHalf} {old : Option PairHalf} (hheld : old = some held)
    (h : held.target ≠ new.target) : new.Meets old false none (some new) old := by
  subst hheld
  exact .of_completes (by simp [PairHalf.completes, h]) (by simp [PairHalf.breaks, h])

theorem exec_secretHalf (h : s.inFrame) {tag : Byte} {half : Half} {e : Nat} {a b : KeyWord} {completes : Bool}
    {joined : Option Key} {leaves breaks : Option PairHalf} (he : e ≤ 1023) (hstate : (s.entry e).state ≠ .unloaded)
    (hmeets : PairHalf.Meets ⟨.secret e, half, a, b⟩ s.pairBuffer completes joined leaves breaks) :
    exec (.secretHalf tag half e a b) s =
      .next
        (((({ s with pairBuffer := leaves } : State).setEntry e { s.entry e with secret := joined }).accepted tag
          (.secretHalf e half completes)).reportBroken breaks) := by
  obtain ⟨rfl, rfl, rfl, rfl⟩ := hmeets
  have hcell : exec (.secretHalf tag half e a b) s = .next (s.secretHalf tag half e a b) :=
    State.managementCell_inFrame h fun v => v.secretHalf tag half e a b
  rw [hcell, State.secretHalf, if_neg (Nat.not_lt.2 he), if_neg hstate]
  rfl

theorem exec_stagedHalf (h : s.inFrame) {tag : Byte} {half : Half} {j : Nat} {a b : KeyWord} {completes : Bool}
    {joined : Option Key} {leaves breaks : Option PairHalf} (hj : j ≤ 255)
    (hmarks : ∀ k, (s.context j).staged = some k → k.txTaken = k.rxTaken)
    (hmeets : PairHalf.Meets ⟨.stagedKey j, half, a, b⟩ s.pairBuffer completes joined leaves breaks) :
    exec (.stagedHalf tag half j a b) s =
      .next
        (((({ s with pairBuffer := leaves } : State).setContext j
            { s.context j with staged := joined.map fun k => ⟨k, false, false⟩ }).accepted tag
          (.stagedHalf j half completes)).reportBroken breaks) := by
  obtain ⟨rfl, rfl, rfl, rfl⟩ := hmeets
  have hcell : exec (.stagedHalf tag half j a b) s = .next (s.stagedHalf tag half j a b) :=
    State.managementCell_inFrame h fun v => v.stagedHalf tag half j a b
  have hidle : ¬ (s.context j).stagedBusy = true := by
    rw [Context.stagedBusy, Option.any_eq_true]
    rintro ⟨k, hk, hhalf⟩
    simp [StagedKey.halfTaken, hmarks k hk] at hhalf
  rw [hcell, State.stagedHalf, if_neg (Nat.not_lt.2 hj), if_neg hidle]
  rfl

/-- STAGED HALF is refused while exactly one side has taken the staged key (R124). -/
theorem exec_stagedHalf_busy (h : s.inFrame) (tag : Byte) (half : Half) {j : Nat} (a b : KeyWord) {k : StagedKey}
    (hj : j ≤ 255) (hk : (s.context j).staged = some k) (hmarks : k.txTaken ≠ k.rxTaken) :
    exec (.stagedHalf tag half j a b) s = .next (s.refused tag 9 .stagedBusy) := by
  have hcell : exec (.stagedHalf tag half j a b) s = .next (s.stagedHalf tag half j a b) :=
    State.managementCell_inFrame h fun v => v.stagedHalf tag half j a b
  have hbusy : (s.context j).stagedBusy = true := by simp [Context.stagedBusy, StagedKey.halfTaken, hk, hmarks]
  rw [hcell, State.stagedHalf, if_neg (Nat.not_lt.2 hj), if_pos hbusy]
  rfl

/-- Settles O31: each clause is what the new half makes of the half that the buffer holds. -/
theorem halvesJoinIntoKeys : Obligations.HalvesJoinIntoKeys := by
  refine ⟨fun tag e a b s hframe he hstate => ⟨fun c d hheld => ?_, fun c d hheld => ?_, fun half hheld => ?_,
      fun half old hheld hforeign => ?_⟩,
    fun tag j a b s hframe hj => ⟨fun k half hk hmarks => exec_stagedHalf_busy hframe tag half a b hj hk hmarks,
      fun hmarks => ⟨fun c d hheld => ?_, fun c d hheld => ?_, fun half hheld => ?_,
        fun half old hheld hforeign => ?_⟩⟩⟩
  · exact exec_secretHalf hframe he hstate (hheld ▸ PairHalf.meets_other (half := .low) (other := .high) nofun _ a b c d)
  · exact exec_secretHalf hframe he hstate (hheld ▸ PairHalf.meets_other (half := .high) (other := .low) nofun _ a b c d)
  · exact exec_secretHalf hframe he hstate (PairHalf.meets_same hheld)
  · rw [exec_secretHalf hframe he hstate (PairHalf.meets_foreign hheld hforeign), hheld]
    rfl
  · exact exec_stagedHalf hframe hj hmarks (hheld ▸ PairHalf.meets_other (half := .low) (other := .high) nofun _ a b c d)
  · exact exec_stagedHalf hframe hj hmarks (hheld ▸ PairHalf.meets_other (half := .high) (other := .low) nofun _ a b c d)
  · exact exec_stagedHalf hframe hj hmarks (PairHalf.meets_same hheld)
  · rw [exec_stagedHalf hframe hj hmarks (PairHalf.meets_foreign hheld hforeign), hheld]
    rfl

end Sys2Proof.Machine
end

section
/-! The end of calls and admissions by management cells: CLOSE CALL, UNLOAD EXTENSION, FORCE SIGN-OFF and BAR
(R58 to R61, R66, R120, R121). The answer is queued first; it changes nothing that the rest of the cell reads. -/

namespace Sys2Proof.Machine

variable {s : State}

/-! ### The answer -/

/-- The outbound management cells of another state, in place of a state's own. -/
def State.withReports (s t : State) : State :=
  { s with reportQueue := t.reportQueue, reportPause := t.reportPause, lostReports := t.lostReports }

theorem State.withReports_congr (s : State) {t u : State} (h : SameReports t u) : s.withReports t = s.withReports u := by
  obtain ⟨hqueue, hpause, hlost⟩ := h
  rw [State.withReports, State.withReports, hqueue, hpause, hlost]

theorem State.accept_eq_withReports (s : State) (tag : Byte) (values : Accepted) :
    s.accept tag values = s.withReports (s.accept tag values) := s.joinCell_frame 0 _

/-! ### CLOSE CALL (R120, R121) -/

theorem State.releaseContext_withReports (s t : State) (j : Nat) (call : Call) :
    (s.withReports t).releaseContext j call = (s.releaseContext j call).withReports t := rfl

/-- A context is released after an answer as before it: the release neither reads nor writes what the answer changes. -/
theorem State.releaseContext_accept (s : State) (tag : Byte) (values : Accepted) (j : Nat) (call : Call) :
    (s.accept tag values).releaseContext j call = (s.releaseContext j call).accept tag values := by
  have hframe := s.releaseContext_frame j call
  have hreleased : SameReports s (s.releaseContext j call) :=
    ⟨(congrArg State.reportQueue hframe :).symm, (congrArg State.reportPause hframe :).symm,
      (congrArg State.lostReports hframe :).symm⟩
  have hsame : SameReports (s.accept tag values) ((s.releaseContext j call).accept tag values) :=
    hreleased.joinCell 0 (.accepted tag values)
  rw [s.accept_eq_withReports, State.releaseContext_withReports, State.withReports_congr _ hsame,
    ← State.accept_eq_withReports]

theorem exec_closeCall (h : s.inFrame) (tag : Byte) {j : Nat} (hj : j ≤ 255) :
    exec (.closeCall tag j) s =
      .next ((s.accept tag (.closeCall j (s.context j).isOpen)).closeContext j .requested) := by
  have hcell : exec (.closeCall tag j) s = .next (s.closeCall tag j) :=
    State.managementCell_inFrame h fun v => v.closeCall tag j
  rw [hcell, State.closeCall, if_neg (Nat.not_lt.2 hj)]

/-- Settles O35: the context released after the answer is the one of the state before it. -/
theorem closeCallFreesContext : Obligations.CloseCallFreesContext := by
  intro tag j s hframe hj
  have hcall (values : Accepted) : ((s.accept tag values).context j).call = (s.context j).call := by
    rw [State.accept, State.joinCell_frame]; rfl
  rw [exec_closeCall hframe tag hj, State.closeContext, Context.isOpen, hcall]
  refine ⟨fun hfree => ?_, fun call hopen => ?_⟩
  · rw [hfree]; rfl
  · rw [hopen]
    dsimp only
    rw [State.releaseContext_accept]
    rfl


/-! ### Forcing an entry off (R58 to R61) -/

variable {t : State} {e p : Nat} {state : EntryState}

/-- The answer that went before the end of an admission is among the cells queued. -/
theorem AdmissionEnded.of_withReports {u : State} (h : AdmissionEnded (s.withReports u) t e p state) :
    AdmissionEnded s t e p state := by
  obtain ⟨hentry, hothers, hposition, helsewhere, hcall, hitems, hframe⟩ := h
  exact ⟨hentry, hothers, hposition, helsewhere, hcall, hitems, hframe⟩

/-- So is the reply that follows it. -/
theorem AdmissionEnded.replyTo (h : AdmissionEnded s t e p state) (q : Nat) (r : LineReply) :
    AdmissionEnded s (t.replyTo q r) e p state := by
  obtain ⟨hentry, hothers, hposition, helsewhere, hcall, hitems, hframe⟩ := h
  exact ⟨hentry, hothers, hposition, helsewhere, hcall, hitems,
    congrArg (fun v : State => { v with highways := (t.replyTo q r).highways }) hframe⟩

/-- The removal of an ADMITTED entry after the cell's answer (R58). -/
theorem State.removeEntry_admitted (h : s.agrees) (tag : Byte) (values : Accepted) (cause : CloseCause)
    (state : EntryState) (hstate : (s.entry e).state = .admitted) (hhome : (s.entry e).home = some p) :
    AdmissionEnded s ((s.accept tag values).removeEntry e cause state) e p state ∧
      ((s.accept tag values).removeEntry e cause state).highways = (s.replyTo p (.lapsed .forced)).highways ∧
      SameReports ((s.accept tag values).removeEntry e cause state)
        (s.reportClosed (s.accepted tag values) e p cause) := by
  obtain ⟨⟨howners, -⟩, -, -, hcalls, -⟩ := h
  have hone (f : Nat) (hf : (s.entry f).state = .admitted) (hfp : (s.entry f).home = some p) : f = e :=
    Option.some.inj (((howners p f).2 ⟨hf, hfp⟩).symm.trans ((howners p e).2 ⟨hstate, hhome⟩))
  obtain ⟨hcontext, hposition⟩ := State.callsAgree_home hcalls hhome hone
  have hremove : (s.accept tag values).removeEntry e cause state =
      (((s.accept tag values).dropCandidate e).endAdmission e cause state).replyTo p (.lapsed .forced) := by
    unfold State.removeEntry State.forceOff
    rw [State.entry_accept, hstate, hhome]
  have hended := State.dropAndEnd_spec (s.accept tag values) e p cause state
  rw [hremove]
  rw [s.accept_eq_withReports] at hended ⊢
  obtain ⟨hadmission, hhighways, hreports⟩ := hended hhome hcontext hposition
  refine ⟨hadmission.of_withReports.replyTo p _, State.replyTo_congr hhighways p _, ?_⟩
  rw [State.accepted, ← State.accept, s.accept_eq_withReports]
  exact hreports

/-- The removal of an entry outside an admission after the cell's answer (R58). -/
theorem State.removeEntry_outside (tag : Byte) (values : Accepted) (cause : CloseCause) (state : EntryState)
    (hstate : (s.entry e).state = .absent ∨ (s.entry e).state = .barred) :
    (s.accept tag values).removeEntry e cause state =
      ((s.accept tag values).dropCandidate e).setEntry e
        { ((s.accept tag values).dropCandidate e).entry e with state := state } := by
  unfold State.removeEntry
  rw [State.entry_accept]
  obtain hstate | hstate := hstate
  · rw [hstate]; rfl
  · rw [hstate]; rfl

section Cells

variable (hframe : s.inFrame) (tag : Byte) (he : e ≤ 1023)

include hframe he

theorem exec_unloadExtension (hloaded : (s.entry e).state ≠ .unloaded) :
    exec (.unloadExtension tag e) s =
      .next (((s.accept tag (.entryCommand .unloadExtension e)).removeEntry e .unloaded .unloaded).clearFailures e) := by
  have hcell : exec (.unloadExtension tag e) s = .next (s.unloadExtension tag e) :=
    State.managementCell_inFrame hframe fun v => v.unloadExtension tag e
  rw [hcell, State.unloadExtension, if_neg (Nat.not_lt.2 he), if_neg hloaded]

theorem exec_forceSignOff (hloaded : (s.entry e).state ≠ .unloaded)
    (hheld : (s.entry e).state = .admitted ∨ (s.entry e).candidate ≠ none) :
    exec (.forceSignOff tag e) s =
      .next ((s.accept tag (.entryCommand .forceSignOff e)).removeEntry e .signedOff .absent) := by
  have hcell : exec (.forceSignOff tag e) s = .next (s.forceSignOff tag e) :=
    State.managementCell_inFrame hframe fun v => v.forceSignOff tag e
  have hidle : ¬ ((s.entry e).state ≠ .admitted ∧ (s.entry e).candidate = none) := fun ⟨hstate, hnone⟩ =>
    hheld.elim hstate fun hsome => hsome hnone
  rw [hcell, State.forceSignOff, if_neg (Nat.not_lt.2 he), if_neg hloaded, if_neg hidle]

/-- FORCE SIGN-OFF is refused for an entry without an admission or a candidate (R60). -/
theorem exec_forceSignOff_idle (hloaded : (s.entry e).state ≠ .unloaded) (hstate : (s.entry e).state ≠ .admitted)
    (hnone : (s.entry e).candidate = none) :
    exec (.forceSignOff tag e) s = .next (s.refused tag 4 .notAdmitted) := by
  have hcell : exec (.forceSignOff tag e) s = .next (s.forceSignOff tag e) :=
    State.managementCell_inFrame hframe fun v => v.forceSignOff tag e
  rw [hcell, State.forceSignOff, if_neg (Nat.not_lt.2 he), if_neg hloaded, if_pos ⟨hstate, hnone⟩]
  rfl

theorem exec_bar (hloaded : (s.entry e).state ≠ .unloaded) :
    exec (.bar tag e) s = .next ((s.accept tag (.entryCommand .bar e)).removeEntry e .barred .barred) := by
  have hcell : exec (.bar tag e) s = .next (s.barEntry tag e) :=
    State.managementCell_inFrame hframe fun v => v.barEntry tag e
  rw [hcell, State.barEntry, if_neg (Nat.not_lt.2 he), if_neg hloaded]

/-- Every cell that names an UNLOADED entry is refused (R56, R59 to R61). -/
theorem exec_refused_of_unloaded (hstate : (s.entry e).state = .unloaded) :
    exec (.unloadExtension tag e) s = .next (s.refused tag 2 .notLoaded) ∧
      exec (.forceSignOff tag e) s = .next (s.refused tag 4 .notLoaded) ∧
      exec (.bar tag e) s = .next (s.refused tag 5 .notLoaded) ∧
      ∀ half first second, exec (.secretHalf tag half e first second) s = .next (s.refused tag 3 .notLoaded) := by
  have hindex : ¬ 1023 < e := Nat.not_lt.2 he
  refine ⟨?_, ?_, ?_, fun half first second => ?_⟩
  · refine (State.managementCell_inFrame hframe fun v => v.unloadExtension tag e).trans ?_
    rw [State.unloadExtension, if_neg hindex, if_pos hstate]; rfl
  · refine (State.managementCell_inFrame hframe fun v => v.forceSignOff tag e).trans ?_
    rw [State.forceSignOff, if_neg hindex, if_pos hstate]; rfl
  · refine (State.managementCell_inFrame hframe fun v => v.barEntry tag e).trans ?_
    rw [State.barEntry, if_neg hindex, if_pos hstate]; rfl
  · refine (State.managementCell_inFrame hframe fun v => v.secretHalf tag half e first second).trans ?_
    rw [State.secretHalf, if_neg hindex, if_pos hstate]; rfl

end Cells

/-- Settles O30: an ADMITTED entry's admission ends after the answer; any other entry's candidate is dropped after it. -/
theorem entriesAreForcedOff : Obligations.EntriesAreForcedOff := by
  refine ⟨fun tag e p s hagrees hframe he hstate hhome => ?_, fun tag e s hframe he =>
    ⟨exec_refused_of_unloaded hframe tag he, fun hstate => ?_⟩⟩
  · have hloaded : (s.entry e).state ≠ .unloaded := by rw [hstate]; nofun
    have hended (command : EntryCommand) (cause : CloseCause) (state : EntryState) :=
      State.removeEntry_admitted hagrees tag (.entryCommand command e) cause state hstate hhome
    exact ⟨⟨_, exec_forceSignOff hframe tag he hloaded (.inl hstate), hended ..⟩,
      ⟨_, exec_bar hframe tag he hloaded, hended ..⟩,
      ⟨_, (hended ..).1, (hended ..).2.1, (hended ..).2.2, exec_unloadExtension hframe tag he hloaded⟩⟩
  · have hloaded : (s.entry e).state ≠ .unloaded := by obtain h | h := hstate <;> rw [h] <;> nofun
    have hadmitted : (s.entry e).state ≠ .admitted := by obtain h | h := hstate <;> rw [h] <;> nofun
    refine ⟨exec_forceSignOff_idle hframe tag he hloaded hadmitted,
      fun hcandidate => ⟨_, State.dropCandidate_spec _ e, ?_⟩, ⟨_, State.dropCandidate_spec _ e, ?_⟩, ⟨_, State.dropCandidate_spec _ e, ?_⟩⟩
    · rw [exec_forceSignOff hframe tag he hloaded (.inr hcandidate), State.removeEntry_outside _ _ _ _ hstate]; rfl
    · rw [exec_bar hframe tag he hloaded, State.removeEntry_outside _ _ _ _ hstate]; rfl
    · rw [exec_unloadExtension hframe tag he hloaded, State.removeEntry_outside _ _ _ _ hstate, State.clearFailures,
        State.setEntry_setEntry, State.entry_setEntry_self]
      rfl

end Sys2Proof.Machine
end

section
/-! READ tells nothing of keys (R52, R169): every page reads the same in the state whose secrets, call keys, staged keys
and Pair Buffer are blanked, and two states that differ only in those blank to one state. -/

namespace Sys2Proof.Machine

variable {s u : State}

/-! ### The state without its keys -/

/-- The state with the words of every key hidden and the Pair Buffer empty. -/
def State.keyless (s : State) : State :=
  { s with
    entries := Table.mapAll {} Entry.hidden s.entries, contexts := Table.mapAll {} Context.hidden s.contexts
    pairBuffer := none }

theorem State.entry_keyless (h : s.wf = true) (e : Nat) : s.keyless.entry e = (s.entry e).hidden := by
  obtain ⟨-, hentries, -⟩ := State.restartTables_wf h
  exact Table.get_mapAll hentries Entry.hidden rfl e

theorem State.context_keyless (h : s.wf = true) (j : Nat) : s.keyless.context j = (s.context j).hidden := by
  obtain ⟨-, -, -, hcontexts, -⟩ := State.restartTables_wf h
  exact Table.get_mapAll hcontexts Context.hidden rfl j

/-- Two states that differ only in the words of keys and in the Pair Buffer are one state without them. -/
theorem SameButKeys.keyless_eq (h : SameButKeys s u) (hs : s.wf = true) (hu : u.wf = true) : s.keyless = u.keyless := by
  obtain ⟨hentry, hcontext, hframe⟩ := h
  obtain ⟨-, hentries, -, hcontexts, -⟩ := State.restartTables_wf hs
  obtain ⟨-, hentries', -, hcontexts', -⟩ := State.restartTables_wf hu
  have hsame : s.keyless.entries = u.keyless.entries :=
    Table.ext_get (Table.map_wf _ hentries) (Table.map_wf _ hentries') fun e =>
      (s.entry_keyless hs e).trans ((hentry e).trans (u.entry_keyless hu e).symm)
  have hsame' : s.keyless.contexts = u.keyless.contexts :=
    Table.ext_get (Table.map_wf _ hcontexts) (Table.map_wf _ hcontexts') fun j =>
      (s.context_keyless hs j).trans ((hcontext j).trans (u.context_keyless hu j).symm)
  calc s.keyless = { s with entries := u.keyless.entries, contexts := u.keyless.contexts, pairBuffer := none } := by
        rw [← hsame, ← hsame']; rfl
    _ = u.keyless :=
      (congrArg (fun v : State =>
        { v with entries := u.keyless.entries, contexts := u.keyless.contexts, pairBuffer := none }) hframe).symm

/-- What the boundary still has to bring about does not depend on keys. -/
theorem SameButKeys.quiet (h : SameButKeys s u) (hquiet : s.quiet) : u.quiet := by
  obtain ⟨hentry, -, hframe⟩ := h
  obtain ⟨hboundary, hcompleting, hholdOff, hanswer, hrefresh, hrechallenge⟩ := hquiet
  rw [hframe]
  refine ⟨hboundary, hcompleting, hholdOff, fun e c hc => ?_, fun e hdue => ?_, fun e hdue => ?_⟩
  · exact hanswer e c ((congrArg Entry.candidate (hentry e)).trans hc)
  · exact hrefresh e ((congrArg Entry.refresh (hentry e)).trans hdue)
  · exact hrechallenge e ((congrArg Entry.rechallenge (hentry e)).trans hdue)

/-! ### The pages (R177) -/

theorem State.extensionStatePage_keyless (h : s.wf = true) (e part : Nat) :
    s.keyless.extensionStatePage e part = s.extensionStatePage e part := by
  match part with
  | 0 => simp only [State.extensionStatePage, State.entry_keyless h, Entry.hidden, Option.isSome_map]
  | 1 => simp only [State.extensionStatePage, State.entry_keyless h, Entry.hidden]
  | 2 => simp only [State.extensionStatePage, State.entry_keyless h, Entry.hidden]; rfl
  | _ + 3 => rfl

theorem State.extensionCandidatePage_keyless (h : s.wf = true) (e part : Nat) :
    s.keyless.extensionCandidatePage e part = s.extensionCandidatePage e part := by
  match part with
  | 0 => simp only [State.extensionCandidatePage, State.entry_keyless h, Entry.hidden]; rfl
  | 1 => simp only [State.extensionCandidatePage, State.entry_keyless h, Entry.hidden]
  | _ + 2 => rfl

theorem Context.isOpen_hidden (c : Context) : c.hidden.isOpen = c.isOpen := Option.isSome_map

theorem stagedCode_hidden (c : Context) : stagedCode c.hidden.staged = stagedCode c.staged := by
  rw [Context.hidden]
  cases c.staged with
  | none => rfl
  | some k => rfl

theorem Context.ends_hidden (c : Context) :
    c.hidden.call.map Call.position = c.call.map Call.position ∧
      c.hidden.call.map Call.entry = c.call.map Call.entry := by
  simp only [Context.hidden, Option.map_map]
  exact ⟨rfl, rfl⟩

theorem State.contextTransmitPage_keyless (h : s.wf = true) (j part : Nat) :
    s.keyless.contextTransmitPage j part = s.contextTransmitPage j part := by
  match part with
  | 0 =>
    obtain ⟨hposition, hentry⟩ := (s.context j).ends_hidden
    simp only [State.contextTransmitPage, State.context_keyless h, Context.isOpen_hidden, hposition, hentry]
    rfl
  | 1 =>
    simp only [State.contextTransmitPage, State.context_keyless h, stagedCode_hidden]
    rfl
  | _ + 2 => rfl

theorem State.contextReceivePage_keyless (h : s.wf = true) (j part : Nat) :
    s.keyless.contextReceivePage j part = s.contextReceivePage j part := by
  match part with
  | 0 => simp only [State.contextReceivePage, State.context_keyless h]; rfl
  | 1 => simp only [State.contextReceivePage, State.context_keyless h]; rfl
  | _ + 2 => rfl

/-- A change to every record that keeps what is counted, and that the reset record lacks, keeps the count. -/
theorem Table.countP_mapAll {α : Type} [DecidableEq α] {d : α} {f : α → α} {P : α → Bool} (hkept : ∀ v, P (f v) = P v)
    (hreset : P d = false) (t : Table α) :
    (Table.mapAll d f t).countP (fun x => P x.2) = t.countP (fun x => P x.2) := by
  rw [Table.mapAll, List.countP_filter, List.countP_map]
  refine List.countP_congr fun x _ => ?_
  have hlisted (hx : P x.2 = true) : f x.2 ≠ d := fun heq => by
    rw [← hkept, heq, hreset] at hx
    nomatch hx
  simpa [hkept] using hlisted

theorem State.openContexts_length_keyless (s : State) : s.keyless.openContexts.length = s.openContexts.length := by
  rw [State.openContexts_length, State.openContexts_length]
  exact Table.countP_mapAll Context.isOpen_hidden rfl s.contexts

theorem State.deviceCountsPage_keyless (s : State) (part : Nat) :
    s.keyless.deviceCountsPage part = s.deviceCountsPage part := by
  match part with
  | 1 => simp only [State.deviceCountsPage, State.openContexts_length_keyless]; rfl
  | 0 | 2 | 3 | _ + 4 => rfl

/-- No page tells of the keys (R52). -/
theorem State.page_keyless (h : s.wf = true) (kind index part : Nat) :
    s.keyless.page kind index part = s.page kind index part := by
  match kind with
  | 1 => exact State.extensionStatePage_keyless h index part
  | 2 => exact State.extensionCandidatePage_keyless h index part
  | 5 => exact State.contextTransmitPage_keyless h index part
  | 6 => exact State.contextReceivePage_keyless h index part
  | 9 => exact s.deviceCountsPage_keyless part
  | 0 | 3 | 4 | 7 | 8 | _ + 10 => rfl

/-! ### The answer (R169) -/

theorem State.freeCount_joinCell (s : State) (level : Nat) (cell : OutCell) :
    (s.joinCell level cell).freeCount = s.freeCount := by rw [State.joinCell_frame]

/-- What a READ queues, and the free values that it uses up, are those of the state without its keys. -/
theorem State.readPage_keyless (h : s.wf = true) (tag : Byte) (kind index part : Nat) :
    SameReports (s.readPage tag kind index part) (s.keyless.readPage tag kind index part) ∧
      (s.readPage tag kind index part).freeCount = (s.keyless.readPage tag kind index part).freeCount := by
  have hrefused (reason : Reason) : SameReports (s.refuse tag 18 reason) (s.keyless.refuse tag 18 reason) ∧
      (s.refuse tag 18 reason).freeCount = (s.keyless.refuse tag 18 reason).freeCount := by
    have hsame : SameReports s s.keyless := ⟨rfl, rfl, rfl⟩
    refine ⟨hsame.joinCell 0 _, ?_⟩
    rw [State.refuse, State.refuse, State.freeCount_joinCell, State.freeCount_joinCell]
    rfl
  unfold State.readPage
  rw [State.page_keyless h]
  split
  · exact hrefused _
  · split
    · exact hrefused _
    · split
      · exact hrefused _
      · next page _ =>
        have hsame (n : Nat) : SameReports { s with freeCount := n } { s.keyless with freeCount := n } := ⟨rfl, rfl, rfl⟩
        refine ⟨(hsame (s.freeCount + openCount page)).joinCell 0 _, ?_⟩
        rw [State.answerPage, State.answerPage, State.freeCount_joinCell, State.freeCount_joinCell]
        rfl

/-- A READ from a quiet state: no answer while the pulse is absent, and the page otherwise. -/
theorem exec_read_quiet (h : s.quiet) (tag : Byte) (kind index part : Nat) :
    exec (.read tag kind index part) s =
      .next (if s.pulse.isAbsent then s else s.readPage tag kind index part) := by
  show s.managementCell (fun v => v.readPage tag kind index part) = _
  rw [State.managementCell, State.whilePulsed, State.finishBoundary_of_quiet h]

/-- Settles O50: the answer to each of the two states is the one to the state that both are without their keys. -/
theorem readTellsNothingOfKeys : Obligations.ReadTellsNothingOfKeys := by
  intro tag kind index part s u s' u' hs hu hquiet hsame hread hread'
  rw [exec_read_quiet hquiet] at hread
  rw [exec_read_quiet (hsame.quiet hquiet)] at hread'
  obtain rfl := Host.Outcome.next.inj hread
  obtain rfl := Host.Outcome.next.inj hread'
  obtain ⟨-, -, hframe⟩ := id hsame
  have hpulse : u.pulse = s.pulse := (congrArg State.pulse hframe :)
  rw [hpulse]
  split
  · exact ⟨⟨(congrArg State.reportQueue hframe :).symm, (congrArg State.reportPause hframe :).symm,
      (congrArg State.lostReports hframe :).symm⟩, (congrArg State.freeCount hframe :).symm⟩
  · obtain ⟨hreports, hfree⟩ := State.readPage_keyless hs tag kind index part
    obtain ⟨hreports', hfree'⟩ := State.readPage_keyless hu tag kind index part
    rw [hsame.keyless_eq hs hu] at hreports hfree
    exact ⟨hreports.trans hreports'.symm, hfree.trans hfree'.symm⟩

end Sys2Proof.Machine
end

section
/-! What a full queue drops (R72, R73, R171 to R173), and the line cells of the sign-on protocol: cells without effect,
ANSWER, KEEPALIVE and SIGN-OFF (R70, R84, R88, R90, R91, R164). -/

namespace Sys2Proof.Machine

variable {s t : State}

/-! ### Line Reply Queues (R72, R73) -/

/-- A reply to a speech slot concerns the slot's highway only. -/
theorem State.replyTo_slot (s : State) (h : Nat) {slot : Nat} (hslot : slot < 120) (r : LineReply) :
    s.replyTo (120 * h + slot) r =
      s.setHighway h
        (if (s.highway h).queue.length < 16 then
          { s.highway h with queue := (s.highway h).queue ++ [.reply slot r] }
        else { s.highway h with drops := saturatingNext 65535 (s.highway h).drops }) := by
  have hhighway : (120 * h + slot) / 120 = h := by omega
  have hplace : (120 * h + slot) % 120 = slot := by omega
  rw [State.replyTo, hhighway, hplace]

/-! ### The Report Queue (R171 to R173) -/

theorem foldl_max_level_le_iff (q : List QueuedCell) (a n : Nat) :
    q.foldl (fun m c => max m c.level) a ≤ n ↔ a ≤ n ∧ ∀ c ∈ q, c.level ≤ n := by
  induction q generalizing a with
  | nil => simp
  | cons c q ih => rw [List.foldl_cons, ih, max_le_iff, List.forall_mem_cons, and_assoc]

theorem greatestLevel_le_iff {q : List QueuedCell} {n : Nat} : greatestLevel q ≤ n ↔ ∀ c ∈ q, c.level ≤ n :=
  (foldl_max_level_le_iff q 0 n).trans (and_iff_right n.zero_le)

theorem lt_greatestLevel_iff {q : List QueuedCell} {n : Nat} : n < greatestLevel q ↔ ∃ c ∈ q, n < c.level := by
  simpa using (greatestLevel_le_iff (q := q) (n := n)).not

/-- The cell that leaves when the newest cell of a level present is removed: no later cell has its level (R172). -/
theorem removeNewest_split {level : Nat} {q : List QueuedCell} (h : ∃ c ∈ q, c.level = level) :
    ∃ before d after, q = before ++ d :: after ∧ d.level = level ∧ (∀ x ∈ after, x.level ≠ level) ∧
      removeNewest level q = before ++ after := by
  induction q with
  | nil => simp at h
  | cons c q ih =>
    by_cases hq : ∃ d ∈ q, d.level = level
    · have hany : q.any (fun d => decide (d.level = level)) = true := by simpa using hq
      obtain ⟨before, d, after, rfl, hd, hafter, hremoved⟩ := ih hq
      exact ⟨c :: before, d, after, rfl, hd, hafter, by rw [removeNewest, if_pos hany, hremoved, List.cons_append]⟩
    · have hany : ¬ q.any (fun d => decide (d.level = level)) = true := by simpa using hq
      have hc : c.level = level := by
        obtain ⟨d, hd, hl⟩ := h
        rcases List.mem_cons.1 hd with rfl | hd
        · exact hl
        · exact absurd ⟨d, hd, hl⟩ hq
      exact ⟨[], c, q, rfl, hc, fun x hx hl => hq ⟨x, hx, hl⟩,
        by rw [removeNewest, if_neg hany, if_pos hc, List.nil_append]⟩

theorem reportPauseAfterJoin_eq (pause : Bool) (count : Nat) :
    reportPauseAfterJoin pause (count + 1) = if count = 47 then true else pause := by
  by_cases h : count = 47 <;> simp [reportPauseAfterJoin, h]

/-- A cell joins a queue with room (R172, R173). -/
theorem State.joinCell_room (level : Nat) (cell : OutCell) (hroom : s.reportQueue.length < 64) :
    s.joinCell level cell =
      { s with
        reportQueue := s.reportQueue ++ [⟨level, cell⟩]
        reportPause := if s.reportQueue.length = 47 then true else s.reportPause } := by
  rw [State.joinCell, if_pos hroom, reportPauseAfterJoin_eq]

/-- At a full queue that holds a greater level, its newest cell of the greatest level gives way (R172). -/
theorem State.joinCell_displaces (level : Nat) (cell : OutCell) (hfull : 64 ≤ s.reportQueue.length)
    (hgreater : ∃ d ∈ s.reportQueue, level < d.level) :
    s.joinCell level cell =
      { s with
        reportQueue := removeNewest (greatestLevel s.reportQueue) s.reportQueue ++ [⟨level, cell⟩]
        lostReports := saturatingNext 65535 s.lostReports } := by
  rw [State.joinCell, if_neg (Nat.not_lt.2 hfull), if_pos (lt_greatestLevel_iff.2 hgreater)]

/-- At a full queue without a greater level the cell is lost (R172). -/
theorem State.joinCell_lost (level : Nat) (cell : OutCell) (hfull : 64 ≤ s.reportQueue.length)
    (hleast : ∀ d ∈ s.reportQueue, d.level ≤ level) :
    s.joinCell level cell = { s with lostReports := saturatingNext 65535 s.lostReports } := by
  rw [State.joinCell, if_neg (Nat.not_lt.2 hfull), if_neg (Nat.not_lt.2 (greatestLevel_le_iff.2 hleast))]

/-- Settles O10: each queue by whether it has room, and a full Report Queue by whether it holds a greater level. -/
theorem queuesTakeOrDropCells : Obligations.QueuesTakeOrDropCells := by
  refine ⟨fun s h slot r hslot => ?_,
    fun s level cell => ⟨State.joinCell_room level cell, fun hfull hgreater => ?_, State.joinCell_lost level cell⟩,
    fun s r => ⟨fun hlevel => if_pos hlevel, fun hlevel => if_neg (Nat.not_lt.2 hlevel)⟩⟩
  · rw [State.replyTo_slot s h hslot]
    refine ⟨fun hroom => ?_, fun hfull => ?_, ?_, fun k hk => State.highway_setHighway_other s _ hk, rfl⟩
    · rw [State.highway_setHighway_self, if_pos hroom]; exact ⟨rfl, rfl⟩
    · rw [State.highway_setHighway_self, if_neg (Nat.not_lt.2 hfull)]; exact ⟨rfl, rfl⟩
    · rw [State.highway_setHighway_self]; split <;> rfl
  · obtain ⟨before, d, after, hqueue, hd, hafter, hremoved⟩ :=
      removeNewest_split (greatestLevel_attained (lt_greatestLevel_iff.2 hgreater))
    have hgreatest : ∀ x ∈ s.reportQueue, x.level ≤ d.level := hd ▸ greatestLevel_le_iff.1 le_rfl
    refine ⟨before, d, after, hqueue, hgreatest, fun x hx => ?_, ?_⟩
    · exact lt_of_le_of_ne (hgreatest x (by simp [hqueue, hx])) (hd ▸ hafter x hx)
    · rw [State.joinCell_displaces level cell hfull hgreater, hremoved]; rfl

/-! ### Cells without effect (R70, R164) -/

/-- A line cell of a known kind whose slot is no speech slot is discarded (R70). -/
theorem State.lineCell_discarded (s : State) (highway : Nat) {slot : Nat} (hslot : 120 ≤ slot)
    (effect : Nat → State → State) : s.lineCell highway slot effect = .next s := by
  simp only [State.lineCell, State.whilePulsed, if_neg (Nat.not_lt.2 hslot), ite_self]

theorem exec_unknownKind (hframe : s.inFrame) (tag : Byte) (kind : Nat) :
    exec (.unknownKind tag kind) s = .next (s.refused tag kind .unknownKind) :=
  State.managementCell_inFrame hframe fun v => v.refuse tag kind .unknownKind

/-- Settles O23: the discarded cells do not reach their effect, and the answer is all that an unknown kind has. -/
theorem cellsWithoutEffect : Obligations.CellsWithoutEffect :=
  ⟨fun h s => ⟨rfl, fun _ _ => rfl,
      fun _ identity hslot => s.lineCell_discarded h hslot fun p v => v.signOnAt p identity,
      fun _ response hslot => s.lineCell_discarded h hslot fun p v => v.answerAt p response,
      fun _ hslot => s.lineCell_discarded h hslot fun p v => v.keepaliveAt p,
      fun _ hslot => s.lineCell_discarded h hslot fun p v => v.signOffAt p⟩,
    fun tag kind _ => ⟨rfl, fun hframe => exec_unknownKind hframe tag kind⟩⟩

/-! ### ANSWER (R84) -/

theorem exec_answer (hframe : s.inFrame) (h : Fin 4) {slot p : Nat} (response : Response) (hslot : slot < 120)
    (hp : p = 120 * h.val + slot) : exec (.answer h slot response) s = .next (s.answerAt p response) := by
  subst hp
  exact State.lineCell_inFrame hframe hslot h.val fun p v => v.answerAt p response

/-- An ANSWER where an entry is pending concerns the entry's candidate, once: a QUEUED one is left as it is (R84). -/
theorem State.answerAt_pending {p e : Nat} {c : Candidate} (response : Response)
    (hpending : (s.position p).pending = some e) (hc : (s.entry e).candidate = some c) :
    s.answerAt p response =
      if c.stage = .queued then s
      else if 32 ≤ s.verifyQueue.length then s.waitWithBackoff p
      else s.appendItem e c p response := by
  rw [State.answerAt, hpending]
  simp only [State.answerFor, hc]
  cases c.stage <;> rfl

theorem verifyPauseAfterAppend_eq (pause : Bool) (count : Nat) :
    verifyPauseAfterAppend pause (count + 1) = if count = 23 then true else pause := by
  by_cases h : count = 23 <;> simp [verifyPauseAfterAppend, h]

/-! ### KEEPALIVE (R88) -/

theorem exec_keepalive (hframe : s.inFrame) (h : Fin 4) {slot p : Nat} (hslot : slot < 120)
    (hp : p = 120 * h.val + slot) : exec (.keepalive h slot) s = .next (s.keepaliveAt p) := by
  subst hp
  exact State.lineCell_inFrame hframe hslot h.val fun p v => v.keepaliveAt p

/-- A KEEPALIVE during a renewal repeats the challenge until the ANSWER has come (R88). -/
theorem State.keepaliveAt_renewing {p e : Nat} {c : Candidate} (howner : (s.position p).owner = some e)
    (hc : (s.entry e).candidate = some c) (hkind : c.kind = .renew) :
    s.keepaliveAt p = if c.stage = .queued then s else s.replyTo p (.challenge c.challenge) := by
  rw [State.keepaliveAt, howner]
  simp only [State.keepaliveOf, hc, hkind]
  cases c.stage <;> rfl

/-- A KEEPALIVE outside a renewal reloads the refresh deadline (R88). -/
theorem State.keepaliveAt_settled {p e : Nat} (howner : (s.position p).owner = some e)
    (hkind : ∀ c, (s.entry e).candidate = some c → c.kind ≠ .renew) : s.keepaliveAt p = s.reloadRefresh e := by
  rw [State.keepaliveAt, howner]
  dsimp only [State.keepaliveOf]
  split
  · rfl
  · next c hc =>
    split
    · rfl
    · rfl
    · next hrenew => exact absurd hrenew (hkind c hc)

/-- Settles O25: the cases of an ANSWER by the pending entry, its stage and the room in the queue, and those of a
KEEPALIVE by the owner and the kind of its candidate. -/
theorem answerAndKeepaliveAreDecided : Obligations.AnswerAndKeepaliveAreDecided := by
  refine ⟨fun h slot p response s hframe hslot hp => ?_, fun h slot p s hframe hslot hp => ?_⟩
  · rw [exec_answer hframe h response hslot hp]
    refine ⟨fun hpending => by rw [State.answerAt, hpending], fun e c hpending hc => ?_⟩
    rw [State.answerAt_pending response hpending hc]
    refine ⟨fun hqueued => ?_, fun hawaiting hfull => ?_, fun hawaiting hroom => ?_⟩
    · rw [if_pos hqueued]
    · rw [if_neg hawaiting, if_pos hfull, State.waitWithBackoff_eq]
    · rw [if_neg hawaiting, if_neg (Nat.not_le.2 hroom), State.appendItem, verifyPauseAfterAppend_eq]; rfl
  · rw [exec_keepalive hframe h hslot hp]
    refine ⟨fun howner => by rw [State.keepaliveAt, howner], fun e howner => ⟨fun c hc hkind hawaiting => ?_,
      fun c hc hkind hqueued => ?_, fun hkind => ?_⟩⟩
    · rw [State.keepaliveAt_renewing howner hc hkind, if_neg hawaiting]
    · rw [State.keepaliveAt_renewing howner hc hkind, if_pos hqueued]
    · rw [State.keepaliveAt_settled howner hkind]; rfl

/-! ### SIGN-OFF (R90, R91) -/

/-- A report after the end of an admission is among the cells queued. -/
theorem AdmissionEnded.report {e p : Nat} {state : EntryState} (h : AdmissionEnded s t e p state) (r : Report) :
    AdmissionEnded s (t.report r) e p state := by
  rw [show t.report r = t.withReports (t.report r) from t.report_frame r]
  obtain ⟨hentry, hothers, hposition, helsewhere, hcall, hitems, hframe⟩ := h
  exact ⟨hentry, hothers, hposition, helsewhere, hcall, hitems, congrArg (State.withReports · (t.report r)) hframe⟩

theorem AdmissionEnded.settings_eq {e p : Nat} {state : EntryState} (h : AdmissionEnded s t e p state) :
    t.settings = s.settings := by
  obtain ⟨-, -, -, -, -, -, hframe⟩ := h
  exact (congrArg State.settings hframe :)

theorem State.reportClosed_settings (s : State) (e p : Nat) (cause : CloseCause) :
    (s.reportClosed s e p cause).settings = s.settings := by
  unfold State.reportClosed
  split
  · rfl
  · rw [State.report_frame]

/-- In a state whose tables agree, what dropping the candidate of an owner and ending its admission do together
(R58, R63, R120). -/
theorem State.dropAndEnd_owner (h : s.agrees) {e p : Nat} (howner : (s.position p).owner = some e) (cause : CloseCause)
    (state : EntryState) :
    AdmissionEnded s ((s.dropCandidate e).endAdmission e cause state) e p state ∧
      ((s.dropCandidate e).endAdmission e cause state).highways = s.highways ∧
      SameReports ((s.dropCandidate e).endAdmission e cause state) (s.reportClosed s e p cause) := by
  obtain ⟨⟨howners, -⟩, -, -, hcalls, -⟩ := h
  have hhome := ((howners p e).1 howner).2
  have hone (f : Nat) (hf : (s.entry f).state = .admitted) (hfp : (s.entry f).home = some p) : f = e :=
    Option.some.inj (((howners p f).2 ⟨hf, hfp⟩).symm.trans howner)
  obtain ⟨hcontext, hposition⟩ := State.callsAgree_home hcalls hhome hone
  exact s.dropAndEnd_spec e p cause state hhome hcontext hposition

/-- What the sign-off of an owner does (R90). -/
theorem State.signOffOwner_spec (h : s.agrees) {e p : Nat} (howner : (s.position p).owner = some e) :
    AdmissionEnded s (s.signOffOwner p e) e p .absent ∧ (s.signOffOwner p e).highways = s.highways ∧
      SameReports (s.signOffOwner p e) ((s.reportClosed s e p .signedOff).report (.signedOff e p)) := by
  obtain ⟨hended, hhighways, hreports⟩ := State.dropAndEnd_owner h howner .signedOff .absent
  refine ⟨hended.report _, ?_, hreports.report ?_ _⟩
  · rw [State.signOffOwner, State.report_frame]; exact hhighways
  · exact hended.settings_eq.trans (s.reportClosed_settings e p _).symm

/-- The end of an admission leaves pending at its home only an entry whose candidate stands there (R58, R75). -/
theorem AdmissionEnded.candidateAt_of_pending {e f p : Nat} {state : EntryState} (h : AdmissionEnded s t e p state)
    (hagree : s.candidatesAgree) (hpending : (t.position p).pending = some f) : (t.entry f).candidateAt p = true := by
  obtain ⟨-, hothers, hposition, -⟩ := h
  have hkept : (s.position p).pendingWithout (s.entry e) p = some f := by rw [← hpending, hposition]
  unfold Position.pendingWithout at hkept
  split at hkept
  · exact nomatch hkept
  · next hleft =>
    obtain ⟨c, hc, hcp⟩ := (hagree.1 p f).1 hkept
    have hat : (s.entry f).candidateAt p = true := by simp [Entry.candidateAt, hc, hcp]
    have hne : f ≠ e := by rintro rfl; exact hleft hat
    rw [hothers f hne]
    exact hat

/-- Once a position's candidate has been dropped nothing is pending there (R75). -/
theorem CandidateDropped.pending_eq_none {f p : Nat} (h : CandidateDropped s t f)
    (hat : (s.entry f).candidateAt p = true) : (t.position p).pending = none := by
  obtain ⟨-, -, hposition, -⟩ := h
  rw [hposition, Position.pendingWithout, if_pos hat]

/-- The state of a SIGN-OFF once the owner's admission, if there is one, has ended (R90). -/
def State.signOffEnded (s : State) (p : Nat) : State :=
  match (s.position p).owner with
  | none => s
  | some e => s.signOffOwner p e

/-- The state with the candidate pending at a position, if there is one, dropped (R91). -/
def State.dropPending (s : State) (p : Nat) : State :=
  match (s.position p).pending with
  | none => s
  | some e => s.dropCandidate e

theorem exec_signOff (hframe : s.inFrame) (h : Fin 4) {slot p : Nat} (hslot : slot < 120)
    (hp : p = 120 * h.val + slot) :
    exec (.signOff h slot) s = .next (((s.signOffEnded p).dropPending p).replyTo p (.lapsed .signedOff)) := by
  subst hp
  exact State.lineCell_inFrame hframe hslot h.val fun p v => v.signOffAt p

theorem State.signOffEnded_unowned {p : Nat} (howner : (s.position p).owner = none) : s.signOffEnded p = s := by
  rw [State.signOffEnded, howner]

theorem State.signOffEnded_owned {p e : Nat} (howner : (s.position p).owner = some e) :
    s.signOffEnded p = s.signOffOwner p e := by
  rw [State.signOffEnded, howner]

theorem State.dropPending_none {p : Nat} (hpending : (s.position p).pending = none) : s.dropPending p = s := by
  rw [State.dropPending, hpending]

theorem State.dropPending_some {p f : Nat} (hpending : (s.position p).pending = some f) :
    CandidateDropped s (s.dropPending p) f := by
  rw [State.dropPending, hpending]
  exact s.dropCandidate_spec f

/-- Whatever is pending after the owner's sign-off has its candidate at the position (R75, R91). -/
theorem State.candidateAt_signOffEnded (h : s.agrees) {p f : Nat}
    (hpending : ((s.signOffEnded p).position p).pending = some f) :
    ((s.signOffEnded p).entry f).candidateAt p = true := by
  have ⟨_, _, hcandidates, _⟩ := h
  cases howner : (s.position p).owner with
  | none =>
    rw [State.signOffEnded_unowned howner] at hpending ⊢
    obtain ⟨c, hc, hcp⟩ := (hcandidates.1 p f).1 hpending
    simp [Entry.candidateAt, hc, hcp]
  | some e =>
    rw [State.signOffEnded_owned howner] at hpending ⊢
    exact (State.signOffOwner_spec h howner).1.candidateAt_of_pending hcandidates hpending

/-- Settles O26: the owner's admission ends first, and what is then still pending is dropped. -/
theorem signOffEndsAdmission : Obligations.SignOffEndsAdmission := by
  intro h slot p s hagrees hframe hslot hp
  refine ⟨s.signOffEnded p, (s.signOffEnded p).dropPending p, exec_signOff hframe h hslot hp,
    State.signOffEnded_unowned, fun e howner => ?_, State.dropPending_none, fun f => State.dropPending_some, ?_⟩
  · rw [State.signOffEnded_owned howner]
    exact State.signOffOwner_spec hagrees howner
  · cases hpending : ((s.signOffEnded p).position p).pending with
    | none => rw [State.dropPending_none hpending]; exact hpending
    | some f =>
      exact (State.dropPending_some hpending).pending_eq_none (State.candidateAt_signOffEnded hagrees hpending)

end Sys2Proof.Machine
end

section
/-! What the outcomes of a verification leave (R96 to R105): each acts on the state that the completed candidate has
left, in which the home of an entry and the call there still name each other. -/

namespace Sys2Proof.Machine

variable {s t u v w : State} {e p q x : Nat} {state : EntryState}

/-! ### A home and its call (R63, R116) -/

/-- Entry `e` has its home at `p`, and the two name the same call or none. -/
structure State.HomeTied (s : State) (e p : Nat) : Prop where
  home : (s.entry e).home = some p
  call : ∀ j, (s.entry e).context = some j → ∃ c, (s.context j).call = some c ∧ c.position = p ∧ c.entry = e
  context : (s.position p).context ≠ none → (s.entry e).context ≠ none

theorem State.agrees.homeTied (h : s.agrees) (hhome : (s.entry e).home = some p) : s.HomeTied e p := by
  obtain ⟨⟨howners, hhomes⟩, -, -, hcalls, -⟩ := h
  have hadmitted : (s.entry e).state = .admitted := (hhomes e).1 (by rw [hhome]; nofun)
  have howner : (s.position p).owner = some e := (howners p e).2 ⟨hadmitted, hhome⟩
  obtain ⟨hcall, hcontext⟩ := State.callsAgree_home hcalls hhome fun f hf hfp =>
    Option.some.inj (((howners p f).2 ⟨hf, hfp⟩).symm.trans howner)
  exact ⟨hhome, hcall, hcontext⟩

theorem State.agrees.homeTied_of_owner (h : s.agrees) (howner : (s.position p).owner = some x) : s.HomeTied x p := by
  have ⟨⟨howners, _⟩, _⟩ := h
  exact h.homeTied ((howners p x).1 howner).2

theorem State.agrees.state_of_first (h : s.agrees) {c : Candidate} (hc : (s.entry e).candidate = some c)
    (hkind : c.kind = .first) : (s.entry e).state = .absent := by
  obtain ⟨-, -, ⟨-, hkinds⟩, -⟩ := h
  have hagree := hkinds e c hc
  rwa [Entry.kindAgrees, hkind] at hagree

theorem State.agrees.home_of_move (h : s.agrees) {c : Candidate} (hc : (s.entry e).candidate = some c)
    (hkind : c.kind = .move) : (s.entry e).state = .admitted ∧ (s.entry e).home ≠ some c.position := by
  obtain ⟨-, -, ⟨-, hkinds⟩, -⟩ := h
  have hagree := hkinds e c hc
  rwa [Entry.kindAgrees, hkind] at hagree

theorem State.agrees.home_of_renew (h : s.agrees) {c : Candidate} (hc : (s.entry e).candidate = some c)
    (hkind : c.kind = .renew) : (s.entry e).state = .admitted ∧ (s.entry e).home = some c.position := by
  obtain ⟨-, -, ⟨-, hkinds⟩, -⟩ := h
  have hagree := hkinds e c hc
  rwa [Entry.kindAgrees, hkind] at hagree

/-- What ties a home to its call is read off the entry, the position and the contexts. -/
theorem State.HomeTied.congr (h : s.HomeTied e p) (hhome : (t.entry e).home = (s.entry e).home)
    (hentry : (t.entry e).context = (s.entry e).context)
    (hposition : (t.position p).context = (s.position p).context)
    (hcontexts : ∀ j, (s.entry e).context = some j → t.context j = s.context j) : t.HomeTied e p where
  home := hhome.trans h.home
  call j hj := by
    have hj' : (s.entry e).context = some j := hentry.symm.trans hj
    rw [hcontexts j hj']
    exact h.call j hj'
  context := by
    rw [hentry, hposition]
    exact h.context

/-- The end of one admission leaves another home and its call as they were. -/
theorem State.HomeTied.of_ended (h : s.HomeTied x p) (he : s.HomeTied e q) (hended : AdmissionEnded s t e q state)
    (hxe : x ≠ e) (hpq : p ≠ q) : t.HomeTied x p := by
  obtain ⟨-, hothers, -, helsewhere, ⟨hcontexts, -⟩, -⟩ := hended
  refine h.congr (by rw [hothers x hxe]) (by rw [hothers x hxe]) (by rw [helsewhere p hpq]) fun j hj => ?_
  have hother : (s.entry e).context ≠ some j := by
    intro hej
    obtain ⟨c, hc, -, hcx⟩ := h.call j hj
    obtain ⟨d, hd, -, hde⟩ := he.call j hej
    have hcd : c = d := Option.some.inj (hc.symm.trans hd)
    exact hxe (by rw [← hcx, hcd, hde])
  rw [hcontexts, if_neg hother]

/-! ### The end of an admission and what it tells -/

/-- The admission of `e` at `p` has ended from `s` to `t`, with the line cells queued that `v` holds and the management
cells that `w` holds. -/
def AdmissionEndedTelling (s t : State) (e p : Nat) (state : EntryState) (v w : State) : Prop :=
  AdmissionEnded s t e p state ∧ t.highways = v.highways ∧ SameReports t w

theorem AdmissionEndedTelling.replyTo (h : AdmissionEndedTelling s t e p state v w) (q : Nat) (r : LineReply) :
    AdmissionEndedTelling s (t.replyTo q r) e p state (v.replyTo q r) w := by
  obtain ⟨hended, hhighways, hreports⟩ := h
  exact ⟨hended.replyTo q r, State.replyTo_congr hhighways q r, hreports⟩

theorem AdmissionEndedTelling.report (h : AdmissionEndedTelling s t e p state v w) (hsettings : s.settings = w.settings)
    (r : Report) : AdmissionEndedTelling s (t.report r) e p state v (w.report r) := by
  obtain ⟨hended, hhighways, hreports⟩ := h
  refine ⟨hended.report r, ?_, hreports.report (hended.settings_eq.trans hsettings) r⟩
  rw [State.report_frame]
  exact hhighways

theorem AdmissionEndedTelling.sameReports (h : AdmissionEndedTelling s t e p state v w) (hsame : SameReports w u) :
    AdmissionEndedTelling s t e p state v u := by
  obtain ⟨hended, hhighways, hreports⟩ := h
  exact ⟨hended, hhighways, hreports.trans hsame⟩

/-- CALL CLOSED is the same report in two states whose entry names the same context. -/
theorem SameReports.reportClosed (h : SameReports s t) (hsettings : s.settings = t.settings)
    (hcontext : (s.entry e).context = (t.entry e).context) (p : Nat) (cause : CloseCause) :
    SameReports (s.reportClosed s e p cause) (t.reportClosed t e p cause) := by
  unfold State.reportClosed
  rw [hcontext]
  cases (t.entry e).context with
  | none => exact h
  | some j => exact h.report hsettings _

/-- What displacing the owner of a position does (R98). -/
theorem State.HomeTied.displace (h : s.HomeTied x p) (e : Nat) :
    AdmissionEndedTelling s (s.displace x p e) x p .absent s
      ((s.reportClosed s x p .displaced).report (.displaced x p e)) :=
  AdmissionEndedTelling.report (s.dropAndEnd_spec x p .displaced .absent h.home h.call h.context)
    (s.reportClosed_settings x p _).symm _

theorem State.displaceOwner_unowned (howner : (s.position p).owner = none) (e : Nat) : s.displaceOwner p e = s := by
  rw [State.displaceOwner, howner]

theorem State.displaceOwner_owned (howner : (s.position p).owner = some x) (hxe : x ≠ e) :
    s.displaceOwner p e = s.displace x p e := by
  rw [State.displaceOwner, howner]
  exact if_neg hxe

/-! ### The candidate that has completed (R75, R96, R102) -/

/-- The state that the completed candidate of `e` at `p` has left, with a failure count of `n`. -/
def State.leftCounting (s : State) (e p n : Nat) : State :=
  (s.setEntry e { s.entry e with candidate := none, failures := n }).setPosition p { s.position p with pending := none }

theorem State.candidateLeft_eq_leftCounting (s : State) (e p : Nat) :
    s.candidateLeft e p = s.leftCounting e p (s.entry e).failures := rfl

/-- The failure count of a MISMATCH is written after the candidate has been removed. -/
theorem State.setFailures_candidateLeft (s : State) (e p n : Nat) :
    (s.candidateLeft e p).setEntry e { (s.candidateLeft e p).entry e with failures := n } = s.leftCounting e p n := by
  rw [State.entry_candidateLeft, if_pos rfl]
  simp only [State.candidateLeft, State.leftCounting, State.setEntry, State.setPosition, State.position, Table.set_set]

theorem State.entry_leftCounting (s : State) (e p n : Nat) :
    (s.leftCounting e p n).entry e = { s.entry e with candidate := none, failures := n } := by
  simp [State.leftCounting]

theorem State.entry_leftCounting_other (s : State) (p n : Nat) (hxe : x ≠ e) :
    (s.leftCounting e p n).entry x = s.entry x := by
  simp [State.leftCounting, State.entry_setEntry_other _ _ hxe]

theorem State.position_leftCounting (s : State) (e p n q : Nat) :
    (s.leftCounting e p n).position q =
      if q = p then { s.position p with pending := none } else s.position q := by
  simp [State.leftCounting, State.position_setPosition]

/-- A candidate that leaves changes no home, owner or call. -/
theorem State.HomeTied.leftCounting (h : s.HomeTied x q) (e p n : Nat) : (s.leftCounting e p n).HomeTied x q := by
  have hentry : ((s.leftCounting e p n).entry x).home = (s.entry x).home ∧
      ((s.leftCounting e p n).entry x).context = (s.entry x).context := by
    by_cases hxe : x = e
    · subst hxe
      rw [State.entry_leftCounting]
      exact ⟨rfl, rfl⟩
    · rw [State.entry_leftCounting_other s p n hxe]
      exact ⟨rfl, rfl⟩
  refine h.congr hentry.1 hentry.2 ?_ fun j _ => rfl
  rw [State.position_leftCounting]
  split
  · next hq => rw [hq]
  · rfl

theorem State.owner_candidateLeft (s : State) (e p q : Nat) :
    ((s.candidateLeft e p).position q).owner = (s.position q).owner := by
  rw [State.position_candidateLeft]
  split
  · next hq => rw [hq]
  · rfl

/-- What ending the admission of an entry does once its candidate has left; CALL CLOSED is what it would have been
before. -/
theorem State.HomeTied.endAdmission_leftCounting (h : s.HomeTied e q) (p n : Nat) (cause : CloseCause)
    (state : EntryState) :
    AdmissionEndedTelling (s.leftCounting e p n) ((s.leftCounting e p n).endAdmission e cause state) e q state s
      (s.reportClosed s e q cause) := by
  have hentry := s.entry_leftCounting e p n
  obtain ⟨hhome, hcall, hcontext⟩ := h.leftCounting e p n
  have hended : AdmissionEndedTelling (s.leftCounting e p n) _ e q state s _ :=
    State.endAdmission_spec (s.leftCounting e p n) e q cause state hhome (by rw [hentry]) hcall hcontext
  have hsame : SameReports (s.leftCounting e p n) s := ⟨rfl, rfl, rfl⟩
  have hclosed := hsame.reportClosed (e := e) rfl (by rw [hentry]) q cause
  exact hended.sameReports hclosed

/-- A live item removes its entry's candidate, and its outcome is applied to what the candidate left (R95, R96). -/
theorem State.completeItem_live {f : FlightItem} {c : Candidate} (hlive : f.item.isVoid = false)
    (hentry : f.item.entry = e) (hposition : f.item.position = p) (hc : (s.entry e).candidate = some c) :
    s.completeItem f = (s.candidateLeft e p).applyVerdict f.verdict e p c.kind := by
  subst hentry hposition
  unfold State.completeItem
  rw [hlive, hc]
  rfl

/-! ### A MATCH (R97 to R101) -/

theorem State.setEntry_setPosition (s : State) (e p : Nat) (a : Entry) (b : Position) :
    (s.setPosition p b).setEntry e a = (s.setEntry e a).setPosition p b := rfl

/-- The deadlines, the counts, WELCOME and ADMITTED of a MATCH as one write of the entry and one of the position. -/
theorem State.welcome_eq (s : State) (e p : Nat) (renew : Bool) :
    s.welcome e p renew =
      (((s.setEntry e
          { s.entry e with
            failures := 0, refresh := some (s.secondsDeadline (s.groupOf e).refresh)
            rechallenge :=
              if (s.groupOf e).rechallenge = 0 then none
              else some (s.secondsDeadline (s.groupOf e).rechallenge) }).setPosition p
        { s.position p with attempts := 0 }).replyTo p (.welcome (s.groupOf e).refresh)).report
          (.admitted e p renew) := by
  simp only [State.welcome, State.clearCounts, State.loadDeadlines, State.groupOf, State.setEntry_setEntry,
    State.entry_setEntry_self, State.entry_setPosition, State.position_setEntry, State.group_setPosition,
    State.group_setEntry]

/-- An entry bound to a position and welcomed there stands as R97 and R99 leave it. -/
theorem State.welcome_bind (s : State) (e p : Nat) (renew : Bool) :
    (s.bind e p).welcome e p renew = s.admittedAt e p renew := by
  simp only [State.welcome_eq, State.bind, State.groupOf, State.setEntry_setPosition, State.setEntry_setEntry,
    State.setPosition_setPosition, State.entry_setEntry_self, State.entry_setPosition, State.position_setPosition_self,
    State.group_setPosition, State.group_setEntry]
  rfl

/-- The welcome of a RENEW finds its entry bound already (R100). -/
theorem State.welcome_admitted (hstate : (s.entry e).state = .admitted) (hhome : (s.entry e).home = some p)
    (howner : (s.position p).owner = some e) (renew : Bool) :
    s.welcome e p renew = s.admittedAt e p renew := by
  have hentry : { s.entry e with state := .admitted, home := some p } = s.entry e := by rw [← hstate, ← hhome]
  have hposition : { s.position p with owner := some e } = s.position p := by rw [← howner]
  rw [State.welcome_eq, ← hentry, ← hposition]
  rfl

/-- Leaving a home is the end of an admission after which the entry stays ADMITTED (R99). -/
theorem State.leaveHome_eq {h : Nat} (hhome : (s.entry e).home = some h) (hstate : (s.entry e).state = .admitted)
    (p : Nat) :
    s.leaveHome e p =
      ((s.endAdmission e .moved .admitted).replyTo h (.lapsed .moved)).report (.moved e h p) := by
  have hkept : (s.closeContextOf e .moved).unbind e = s.endAdmission e .moved .admitted := by
    obtain ⟨j, hj⟩ := s.entry_closeContextOf e .moved e
    have hclosed : ((s.closeContextOf e .moved).entry e).state = .admitted := by rw [hj]; exact hstate
    have hhome' : ((s.closeContextOf e .moved).entry e).home = some h := by rw [hj]; exact hhome
    unfold State.endAdmission State.setEntryState
    rw [State.unbind_spec _ e h hhome', State.setEntry_setPosition, State.setEntry_setEntry, State.entry_setPosition,
      State.entry_setEntry_self, ← hclosed]
  rw [State.leaveHome, hhome, ← hkept]

/-- The displacement of an owner by the MATCH of a FIRST candidate (R97, R98). -/
theorem State.HomeTied.displace_candidateLeft (h : s.HomeTied x p) (e : Nat) (hxe : x ≠ e) :
    AdmissionEndedTelling (s.candidateLeft e p) ((s.candidateLeft e p).displace x p e) x p .absent s
      ((s.reportClosed s x p .displaced).report (.displaced x p e)) := by
  have htied : (s.candidateLeft e p).HomeTied x p := h.leftCounting e p _
  have hsame : SameReports (s.candidateLeft e p) s := ⟨rfl, rfl, rfl⟩
  have hcontext : ((s.candidateLeft e p).entry x).context = (s.entry x).context := by
    rw [State.entry_candidateLeft, if_neg hxe]
  refine (htied.displace e).sameReports ((hsame.reportClosed rfl hcontext p .displaced).report ?_ _)
  rw [State.reportClosed_settings, State.reportClosed_settings]
  rfl

/-- Settles O17: each MATCH ends in the entry bound and welcomed; before it a FIRST candidate displaces the owner. -/
theorem matchAdmitsOrRenews : Obligations.MatchAdmitsOrRenews := by
  intro s f e p c hagrees hlive hverdict hentry hposition hc hcp
  have ⟨⟨howners, _⟩, _⟩ := hagrees
  rw [State.completeItem_live hlive hentry hposition hc, hverdict]
  refine ⟨fun hkind howner => ?_, fun x hkind howner => ?_, fun hkind => ?_⟩
  · rw [hkind]
    show (((s.candidateLeft e p).displaceOwner p e).bind e p).welcome e p false = _
    rw [State.displaceOwner_unowned ((s.owner_candidateLeft e p p).trans howner), State.welcome_bind]
  · have hxe : x ≠ e := by
      rintro rfl
      exact nomatch (hagrees.state_of_first hc hkind).symm.trans ((howners p x).1 howner).1
    obtain ⟨hended, hhighways, hreports⟩ := (hagrees.homeTied_of_owner howner).displace_candidateLeft e hxe
    refine ⟨_, hended, hhighways, hreports, ?_⟩
    rw [hkind]
    show (((s.candidateLeft e p).displaceOwner p e).bind e p).welcome e p false = _
    rw [State.displaceOwner_owned ((s.owner_candidateLeft e p p).trans howner) hxe, State.welcome_bind]
  · obtain ⟨hstate, hhome⟩ := hagrees.home_of_renew hc hkind
    rw [hcp] at hhome
    have hleft : (s.candidateLeft e p).entry e = { s.entry e with candidate := none } := s.entry_leftCounting e p _
    have howner : ((s.candidateLeft e p).position p).owner = some e :=
      (s.owner_candidateLeft e p p).trans ((howners p e).2 ⟨hstate, hhome⟩)
    rw [hkind]
    show (s.candidateLeft e p).welcome e p true = _
    exact State.welcome_admitted (by rw [hleft]; exact hstate) (by rw [hleft]; exact hhome) howner true

/-- What leaving its home does to an ADMITTED entry whose MOVE candidate has left (R99). -/
theorem State.HomeTied.leaveHome_candidateLeft {h : Nat} (htied : s.HomeTied e h)
    (hstate : (s.entry e).state = .admitted) (p : Nat) :
    AdmissionEndedTelling (s.candidateLeft e p) ((s.candidateLeft e p).leaveHome e p) e h .admitted
      (s.replyTo h (.lapsed .moved)) ((s.reportClosed s e h .moved).report (.moved e h p)) := by
  have hleft : (s.candidateLeft e p).entry e = { s.entry e with candidate := none } := s.entry_leftCounting e p _
  rw [State.leaveHome_eq (h := h) (by rw [hleft]; exact htied.home) (by rw [hleft]; exact hstate)]
  exact ((htied.endAdmission_leftCounting p _ .moved .admitted).replyTo h (.lapsed .moved)).report
    (s.reportClosed_settings e h .moved).symm _

/-- Settles O18: the old home is left first, which leaves the new desk's owner, its home and its call as they were. -/
theorem matchMovesAdmission : Obligations.MatchMovesAdmission := by
  intro s f e p h c hagrees hlive hverdict hentry hposition hc hcp hkind hhome
  have ⟨⟨howners, _⟩, _⟩ := hagrees
  obtain ⟨hstate, hmoves⟩ := hagrees.home_of_move hc hkind
  rw [hcp, hhome] at hmoves
  have hph : p ≠ h := by rintro rfl; exact hmoves rfl
  have htied := hagrees.homeTied hhome
  have hmoved := htied.leaveHome_candidateLeft hstate p
  have hcomplete : s.completeItem f =
      ((((s.candidateLeft e p).leaveHome e p).displaceOwner p e).bind e p).welcome e p false := by
    rw [State.completeItem_live hlive hentry hposition hc, hverdict, hkind]
    rfl
  rw [hcomplete]
  generalize (s.candidateLeft e p).leaveHome e p = m at hmoved
  obtain ⟨hended, hhighways, hreports⟩ := hmoved
  have howner : (m.position p).owner = (s.position p).owner := by
    obtain ⟨-, -, -, helsewhere, -⟩ := hended
    rw [helsewhere p hph]
    exact s.owner_candidateLeft e p p
  refine ⟨m, hended, hhighways, hreports, fun hnone => ?_, fun x hx => ?_⟩
  · rw [State.displaceOwner_unowned (howner.trans hnone), State.welcome_bind]
  · have hxe : x ≠ e := by
      rintro rfl
      exact hmoves (hhome.symm.trans ((howners p x).1 hx).2)
    have hleft : (s.candidateLeft e p).HomeTied x p := (hagrees.homeTied_of_owner hx).leftCounting e p _
    have hnew : m.HomeTied x p := hleft.of_ended (htied.leftCounting e p _) hended hxe hph
    obtain ⟨hdisplaced, hlines, htold⟩ := hnew.displace e
    have hcontext : (m.entry x).context = (s.entry x).context := by
      obtain ⟨-, hothers, -⟩ := hended
      rw [hothers x hxe, State.entry_candidateLeft, if_neg hxe]
    refine ⟨m.displace x p e, hdisplaced, hlines, ?_, ?_⟩
    · unfold State.reportClosed at htold ⊢
      rwa [hcontext] at htold
    · rw [State.displaceOwner_owned (howner.trans hx) hxe, State.welcome_bind]

/-! ### A MISMATCH (R102 to R104) -/

/-- A MISMATCH counts, and then bars its entry or turns the candidate away by the group's limit (R102). -/
theorem State.applyMismatch_candidateLeft {n : Nat} (hn : n = min 7 ((s.entry e).failures + 1)) (p : Nat)
    (kind : CandidateKind) :
    (s.candidateLeft e p).applyMismatch e p kind =
      if (s.group (s.entry e).group).failureLimit ≤ n then
        (((s.leftCounting e p n).barForFailures e p kind).repliedWithBackoff p (.reject .failed)).report
          (.rejected e p kind .failed .nowBarred)
      else
        (((s.leftCounting e p n).endRenewal e kind).repliedWithBackoff p (.reject .failed)).report
          (.rejected e p kind .failed kind.failedResult) := by
  have hcount : saturatingNext 7 ((s.candidateLeft e p).entry e).failures = n := by
    rw [State.entry_candidateLeft, if_pos rfl, hn]
    rfl
  have hgroup : (s.leftCounting e p n).groupOf e = s.group (s.entry e).group := by
    rw [State.groupOf, State.entry_leftCounting]
    rfl
  have hfailures : ((s.leftCounting e p n).entry e).failures = n := by rw [State.entry_leftCounting]
  unfold State.applyMismatch
  rw [hcount, State.setFailures_candidateLeft]
  dsimp only
  rw [hgroup, hfailures]
  rfl

theorem State.endRenewal_of_ne_renew {kind : CandidateKind} (hkind : kind ≠ .renew) (s : State) (e : Nat) :
    s.endRenewal e kind = s := by
  cases kind with
  | first | move => rfl
  | renew => exact absurd rfl hkind

theorem CandidateKind.failedResult_of_ne_renew {kind : CandidateKind} (hkind : kind ≠ .renew) :
    kind.failedResult = .noChange := by
  cases kind with
  | first | move => rfl
  | renew => exact absurd rfl hkind

theorem State.barForFailures_first (s : State) (e p : Nat) :
    s.barForFailures e p .first = (s.setEntryState e .barred).report (.barred e p (s.entry e).failures) := rfl

theorem State.barForFailures_move {h : Nat} (hhome : (s.entry e).home = some h) (p : Nat) :
    s.barForFailures e p .move =
      ((s.endAdmission e .barred .barred).replyTo h (.lapsed .forced)).report (.barred e h (s.entry e).failures) := by
  unfold State.barForFailures
  rw [hhome]

theorem State.barForFailures_renew {h : Nat} (hhome : (s.entry e).home = some h) (p : Nat) :
    s.barForFailures e p .renew = (s.endAdmission e .barred .barred).report (.barred e h (s.entry e).failures) := by
  unfold State.barForFailures
  rw [hhome]

/-- The bar of a MOVE ends the admission at the old home and tells the old desk (R103). -/
theorem State.HomeTied.barForFailures_move {h : Nat} (htied : s.HomeTied e h) (p n : Nat) :
    AdmissionEndedTelling (s.leftCounting e p n) ((s.leftCounting e p n).barForFailures e p .move) e h .barred
      (s.replyTo h (.lapsed .forced)) ((s.reportClosed s e h .barred).report (.barred e h n)) := by
  rw [State.barForFailures_move (htied.leftCounting e p n).home, State.entry_leftCounting]
  exact ((htied.endAdmission_leftCounting p n .barred .barred).replyTo h (.lapsed .forced)).report
    (s.reportClosed_settings e h .barred).symm _

/-- The bar of a RENEW ends the admission at the home (R103). -/
theorem State.HomeTied.barForFailures_renew (htied : s.HomeTied e p) (n : Nat) :
    AdmissionEndedTelling (s.leftCounting e p n) ((s.leftCounting e p n).barForFailures e p .renew) e p .barred s
      ((s.reportClosed s e p .barred).report (.barred e p n)) := by
  rw [State.barForFailures_renew (htied.leftCounting e p n).home, State.entry_leftCounting]
  exact (htied.endAdmission_leftCounting p n .barred .barred).report (s.reportClosed_settings e p .barred).symm _

/-- Settles O19: both halves start from the state with the count written; a bar and a failed RENEW end the admission
there. -/
theorem mismatchIsCounted : Obligations.MismatchIsCounted := by
  constructor
  · intro s u f e p n c hagrees hlive hverdict hentry hposition hc hcp hn hbelow hu
    obtain rfl : u = s.leftCounting e p n := hu
    rw [State.completeItem_live hlive hentry hposition hc, hverdict, State.applyVerdict,
      State.applyMismatch_candidateLeft hn, if_neg (Nat.not_le.2 hbelow)]
    refine ⟨fun hkind => ?_, fun hkind => ?_⟩
    · rw [State.endRenewal_of_ne_renew hkind, CandidateKind.failedResult_of_ne_renew hkind]
    · obtain ⟨-, hhome⟩ := hagrees.home_of_renew hc hkind
      rw [hcp] at hhome
      obtain ⟨hended, hhighways, hreports⟩ :=
        (hagrees.homeTied hhome).endAdmission_leftCounting p n .renewFailed .absent
      exact ⟨_, hended, hhighways, hreports, by rw [hkind]; rfl⟩
  · intro s u f e p n c hagrees hlive hverdict hentry hposition hc hcp hn hlimit hu
    obtain rfl : u = s.leftCounting e p n := hu
    rw [State.completeItem_live hlive hentry hposition hc, hverdict, State.applyVerdict,
      State.applyMismatch_candidateLeft hn, if_pos hlimit]
    refine ⟨fun hkind => ?_, fun h hkind hhome => ?_, fun hkind => ?_⟩
    · rw [hkind, State.barForFailures_first, State.setEntryState]
      simp only [State.entry_leftCounting]
    · obtain ⟨hended, hhighways, hreports⟩ := (hagrees.homeTied hhome).barForFailures_move p n
      exact ⟨_, hended, hhighways, hreports, by rw [hkind]⟩
    · obtain ⟨-, hhome⟩ := hagrees.home_of_renew hc hkind
      rw [hcp] at hhome
      obtain ⟨hended, hhighways, hreports⟩ := (hagrees.homeTied hhome).barForFailures_renew n
      exact ⟨_, hended, hhighways, hreports, by rw [hkind]⟩

/-! ### NOT READY (R105) -/

/-- Settles O20: a failed RENEW ends the admission that the candidate has left; any other candidate has none to end. -/
theorem notReadyTurnsAway : Obligations.NotReadyTurnsAway := by
  intro s f e p c hagrees hlive hverdict hentry hposition hc hcp
  rw [State.completeItem_live hlive hentry hposition hc, hverdict, State.applyVerdict, State.applyNotReady]
  refine ⟨fun hkind => ?_, fun hkind => ?_⟩
  · rw [State.endRenewal_of_ne_renew hkind, CandidateKind.failedResult_of_ne_renew hkind]
  · obtain ⟨-, hhome⟩ := hagrees.home_of_renew hc hkind
    rw [hcp] at hhome
    obtain ⟨hended, hhighways, hreports⟩ :=
      (hagrees.homeTied hhome).endAdmission_leftCounting p (s.entry e).failures .renewFailed .absent
    exact ⟨_, hended, hhighways, hreports, by rw [hkind]; rfl⟩

end Sys2Proof.Machine
end

section
/-! What leaves the Call Context Table as it is: the queues, candidates, homes, positions and playout channels, and the
cells that concern nothing else. -/

namespace Sys2Proof.Machine

variable (s : State)

/-! ### Queues, reports and candidates -/

@[simp] theorem State.contexts_joinCell (level : Nat) (cell : OutCell) : (s.joinCell level cell).contexts = s.contexts := by
  rw [State.joinCell_frame]

@[simp] theorem State.contexts_report (r : Report) : (s.report r).contexts = s.contexts := by rw [State.report_frame]

@[simp] theorem State.contexts_accept (tag : Byte) (values : Accepted) : (s.accept tag values).contexts = s.contexts :=
  s.contexts_joinCell _ _

@[simp] theorem State.contexts_refuse (tag : Byte) (kind : Nat) (reason : Reason) :
    (s.refuse tag kind reason).contexts = s.contexts := s.contexts_joinCell _ _

@[simp] theorem State.contexts_replyTo (p : Nat) (r : LineReply) : (s.replyTo p r).contexts = s.contexts := rfl

@[simp] theorem State.contexts_waitWithBackoff (p : Nat) : (s.waitWithBackoff p).contexts = s.contexts := rfl

@[simp] theorem State.contexts_rejectWithBackoff (p : Nat) (reason : RejectReason) :
    (s.rejectWithBackoff p reason).contexts = s.contexts := rfl

@[simp] theorem State.contexts_removeCandidate (e p : Nat) : (s.removeCandidate e p).contexts = s.contexts := rfl

@[simp] theorem State.contexts_dropCandidate (e : Nat) : (s.dropCandidate e).contexts = s.contexts := by
  obtain ⟨-, -, -, -, hframe⟩ := s.dropCandidate_spec e
  rw [hframe]

@[simp] theorem State.contexts_createCandidate (e p : Nat) (kind : CandidateKind) :
    (s.createCandidate e p kind).contexts = s.contexts := rfl

@[simp] theorem State.contexts_unbind (e : Nat) : (s.unbind e).contexts = s.contexts := by
  unfold State.unbind
  dsimp only
  split
  · rfl
  · rfl

@[simp] theorem State.contexts_bind (e p : Nat) : (s.bind e p).contexts = s.contexts := rfl

@[simp] theorem State.contexts_setEntryState (e : Nat) (state : EntryState) :
    (s.setEntryState e state).contexts = s.contexts := rfl

@[simp] theorem State.contexts_welcome (e p : Nat) (renew : Bool) : (s.welcome e p renew).contexts = s.contexts :=
  State.contexts_report _ _

/-! ### Events of a boundary (R7, R9, R28, R34, R77, R110, R160) -/

@[simp] theorem State.contexts_upstream (p : Nat) (code : Byte) : (s.upstream p code).contexts = s.contexts := by
  unfold State.upstream
  cases s.effective p with
  | lineLoop | switchLoop | pending | mute | clear | tone => rfl
  | scrambled shape j call => cases shape <;> rfl

@[simp] theorem State.contexts_supplyUp (p : Nat) : (s.supplyUp p).contexts = s.contexts := by
  unfold State.supplyUp
  split
  · exact State.contexts_upstream _ p 255
  · rfl

theorem State.contexts_takePlayout (c : Nat) : (s.takePlayout c).contexts = s.contexts := by
  unfold State.takePlayout State.playoutStep
  split
  · dsimp only
    split
    · rfl
    · rfl
    · split
      · exact State.contexts_report _ _
      · rfl
  · rfl

theorem State.contexts_takeLineCell (i : Nat) : (s.takeLineCell i).contexts = s.contexts := by
  unfold State.takeLineCell
  split
  · rfl
  · rfl

theorem State.contexts_sendReport (cut : Bool) : (s.sendReport cut).contexts = s.contexts := by
  unfold State.sendReport
  split
  · rfl
  · split
    · rfl
    · rfl

theorem State.contexts_takeReport : s.takeReport.contexts = s.contexts := by
  unfold State.takeReport
  split
  · exact State.contexts_sendReport _ _
  · rfl

theorem State.contexts_takeSecond : s.takeSecond.contexts = s.contexts := by
  unfold State.takeSecond
  split
  · rfl
  · rfl

theorem State.contexts_takeVerifications : s.takeVerifications.contexts = s.contexts := by
  unfold State.takeVerifications
  split
  · rfl
  · rfl

theorem State.contexts_takeHoldOff (p : Nat) : (s.takeHoldOff p).contexts = s.contexts := by
  unfold State.takeHoldOff
  split
  · rfl
  · rfl

theorem State.contexts_takeRechallenge (e : Nat) : (s.takeRechallenge e).contexts = s.contexts := by
  unfold State.takeRechallenge State.rechallengeAt
  split
  · split
    · rfl
    · split
      · rfl
      · rfl
  · rfl

theorem State.contexts_beforeDownstream : s.beforeDownstream.contexts = s.contexts :=
  (State.contexts_takeReport _).trans <|
    State.forEach_keeps (P := fun v => v.contexts = s.contexts) (fun v c hv => (v.contexts_takePlayout c).trans hv) _ rfl

/-! ### Cells (R49, R50, R56, R57, R62, R67, R68, R81, R84, R88, R156 to R159, R168, R169) -/

theorem State.contexts_signOnAt (p identity : Nat) : (s.signOnAt p identity).contexts = s.contexts := by
  unfold State.signOnAt State.signOnFree State.signOnEntry
  split
  · rfl
  · split
    · rfl
    · split
      · rfl
      · split
        · exact State.contexts_report _ _
        · simp only [apply_ite State.contexts, State.contexts_rejectWithBackoff, State.contexts_createCandidate, ite_self]

theorem State.contexts_answerAt (p : Nat) (response : Response) : (s.answerAt p response).contexts = s.contexts := by
  unfold State.answerAt State.answerFor
  split
  · rfl
  · split
    · rfl
    · split
      · rfl
      · split
        · rfl
        · rfl

theorem State.contexts_keepaliveAt (p : Nat) : (s.keepaliveAt p).contexts = s.contexts := by
  unfold State.keepaliveAt State.keepaliveOf
  split
  · rfl
  · split
    · rfl
    · split
      · rfl
      · rfl
      · split
        · rfl
        · rfl

theorem State.contexts_loadExtension (tag : Byte) (e group identity : Nat) :
    (s.loadExtension tag e group identity).contexts = s.contexts := by
  simp [State.loadExtension, apply_ite State.contexts]

theorem State.contexts_unbarEntry (tag : Byte) (e : Nat) : (s.unbarEntry tag e).contexts = s.contexts := by
  simp [State.unbarEntry, apply_ite State.contexts]

theorem State.contexts_setGroupLimits (tag : Byte) (g budget limit : Nat) :
    (s.setGroupLimits tag g budget limit).contexts = s.contexts := by
  simp [State.setGroupLimits, apply_ite State.contexts]

theorem State.contexts_setGroupTimes (tag : Byte) (g refresh rechallenge : Nat) :
    (s.setGroupTimes tag g refresh rechallenge).contexts = s.contexts := by
  simp [State.setGroupTimes, apply_ite State.contexts]

@[simp] theorem State.contexts_reportBroken (broken : Option PairHalf) :
    (s.reportBroken broken).contexts = s.contexts := by
  cases broken with
  | none => rfl
  | some o => exact s.contexts_report _

theorem State.contexts_secretHalf (tag : Byte) (half : Half) (e : Nat) (first second : KeyWord) :
    (s.secretHalf tag half e first second).contexts = s.contexts := by
  simp [State.secretHalf, apply_ite State.contexts]

theorem State.contexts_setPositionTreatment (tag : Byte) (p treatment tone : Nat) :
    (s.setPositionTreatment tag p treatment tone).contexts = s.contexts := by
  unfold State.setPositionTreatment
  cases treatmentOfCode treatment <;> simp [apply_ite State.contexts]

theorem State.contexts_setPositionGain (tag : Byte) (p direction gain : Nat) :
    (s.setPositionGain tag p direction gain).contexts = s.contexts := by
  unfold State.setPositionGain
  cases directionOfCode direction <;> simp [apply_ite State.contexts]

theorem State.contexts_loadPattern (tag : Byte) (a : Nat) (c0 c1 c2 c3 : Byte) :
    (s.loadPattern tag a c0 c1 c2 c3).contexts = s.contexts := by
  simp [State.loadPattern, apply_ite State.contexts]

theorem State.contexts_setPlayout (tag : Byte) (c repeats mode start length : Nat) :
    (s.setPlayout tag c repeats mode start length).contexts = s.contexts := by
  unfold State.setPlayout
  cases modeOfCode mode <;> simp [apply_ite State.contexts]

theorem State.contexts_stopPlayout (tag : Byte) (c : Nat) : (s.stopPlayout tag c).contexts = s.contexts := by
  simp [State.stopPlayout, apply_ite State.contexts]

theorem State.contexts_setDevice (tag : Byte) (n value : Nat) : (s.setDevice tag n value).contexts = s.contexts := by
  unfold State.setDevice
  cases appliedSetting n value <;> simp [apply_ite State.contexts]

theorem State.contexts_readPage (tag : Byte) (kind index part : Nat) :
    (s.readPage tag kind index part).contexts = s.contexts := by
  unfold State.readPage State.answerPage
  split
  · exact s.contexts_refuse _ _ _
  · split
    · exact s.contexts_refuse _ _ _
    · split
      · exact s.contexts_refuse _ _ _
      · exact State.contexts_joinCell _ _ _

theorem State.contexts_firstPulse : s.firstPulse.contexts = s.contexts :=
  (State.contexts_sendReport _ _).trans <|
    State.forEach_keeps (P := fun v => v.contexts = s.contexts) (fun _ _ hv => hv) (List.range 4) rfl

end Sys2Proof.Machine
end

section
/-! The law of staged keys (R117, R124, R125, R135): what each side's commit and each end of a call leave of it, and every
event and every command as keeping it at each listed context. -/

namespace Sys2Proof.Machine

variable {s t : State}

/-! ### One context -/

theorem Context.keysAgree_reset : ({} : Context).keysAgree := trivial

/-- The law reads whether the context is OPEN, its staged key and its two generations. -/
theorem Context.keysAgree.congr {c v : Context} (h : c.keysAgree) (hopen : v.isOpen = c.isOpen)
    (hstaged : v.staged = c.staged) (htx : v.txGeneration = c.txGeneration) (hrx : v.rxGeneration = c.rxGeneration) :
    v.keysAgree := by
  unfold Context.isOpen at hopen
  unfold Context.keysAgree at h ⊢
  rw [hstaged, htx, hrx]
  cases hc : c.call with
  | none =>
    rw [hc] at h hopen
    rw [Option.isNone_iff_eq_none.1 (Option.isSome_eq_false_iff.1 hopen)]
    exact h
  | some call =>
    rw [hc] at h hopen
    obtain ⟨call', hv⟩ := Option.isSome_iff_exists.1 hopen
    rw [hv]
    revert h
    cases c.staged with
    | none => exact id
    | some k => exact id

/-- A FREE context without a staged key. -/
theorem Context.keysAgree_of_free {c : Context} (hfree : c.call = none) (hstaged : c.staged = none) : c.keysAgree := by
  simp [Context.keysAgree, hfree, hstaged]

/-- With no mark set the two generations of an OPEN context are the same. -/
theorem Context.keysAgree_unmarked {c : Context}
    (hunmarked : ∀ k, c.staged = some k → k.txTaken = false ∧ k.rxTaken = false)
    (hsame : c.isOpen = true → c.txGeneration = c.rxGeneration) : c.keysAgree := by
  unfold Context.keysAgree
  cases hcall : c.call with
  | none =>
    cases hstaged : c.staged with
    | none => trivial
    | some k => exact hunmarked k hstaged
  | some call =>
    have hlevel := hsame (Context.isOpen_of_call hcall)
    cases hstaged : c.staged with
    | none => exact hlevel
    | some k =>
      obtain ⟨htx, hrx⟩ := hunmarked k hstaged
      dsimp only
      rw [htx, hrx]
      exact hlevel

/-- A staged key that no side has taken alone, on an OPEN context whose generations are the same. -/
theorem Context.keysAgree.generations {c : Context} (h : c.keysAgree) (hopen : c.isOpen = true)
    (hbusy : c.stagedBusy = false) : c.txGeneration = c.rxGeneration := by
  unfold Context.isOpen at hopen
  unfold Context.stagedBusy at hbusy
  unfold Context.keysAgree at h
  obtain ⟨call, hcall⟩ := Option.isSome_iff_exists.1 hopen
  cases hstaged : c.staged with
  | none => simpa [hcall, hstaged] using h
  | some k =>
    obtain ⟨key, tx, rx⟩ := k
    cases tx <;> cases rx <;> simp_all [StagedKey.halfTaken]

/-- The transmit commit: the transmit side moves one generation on, which puts it ahead or level (R125, R133). -/
theorem Context.keysAgree.txTaken {c v : Context} (h : c.keysAgree) {k : StagedKey} (hstaged : c.staged = some k)
    (hfresh : k.txTaken = false) (hopen : c.isOpen = true) (hopen' : v.isOpen = true)
    (hv : v.staged = markTaken { k with txTaken := true }) (htx : v.txGeneration = c.txGeneration + 1)
    (hrx : v.rxGeneration = c.rxGeneration) : v.keysAgree := by
  obtain ⟨call, hcall⟩ := Option.isSome_iff_exists.1 hopen
  obtain ⟨call', hcall'⟩ := Option.isSome_iff_exists.1 hopen'
  obtain ⟨key, tx, rx⟩ := k
  obtain rfl : tx = false := hfresh
  cases rx with
  | false => simp_all [Context.keysAgree, markTaken]
  | true => simp_all [Context.keysAgree, markTaken]

/-- The receive commit, in the same way (R125, R150). -/
theorem Context.keysAgree.rxTaken {c v : Context} (h : c.keysAgree) {k : StagedKey} (hstaged : c.staged = some k)
    (hfresh : k.rxTaken = false) (hopen : c.isOpen = true) (hopen' : v.isOpen = true)
    (hv : v.staged = markTaken { k with rxTaken := true }) (htx : v.txGeneration = c.txGeneration)
    (hrx : v.rxGeneration = c.rxGeneration + 1) : v.keysAgree := by
  obtain ⟨call, hcall⟩ := Option.isSome_iff_exists.1 hopen
  obtain ⟨call', hcall'⟩ := Option.isSome_iff_exists.1 hopen'
  obtain ⟨key, tx, rx⟩ := k
  obtain rfl : rx = false := hfresh
  cases tx with
  | false => simp_all [Context.keysAgree, markTaken]
  | true => simp_all [Context.keysAgree, markTaken]

/-! ### The listed contexts -/

/-- The law of staged keys at the listed contexts. -/
structure State.ListedKeys (s : State) : Prop where
  listed : ∀ x ∈ s.contexts, x.2.keysAgree

theorem State.ListedKeys.keysAgree (h : s.ListedKeys) : s.keysAgree :=
  Table.forall_get (P := fun _ v => Context.keysAgree v) h.listed fun _ => Context.keysAgree_reset

theorem State.listedKeys_of_keysAgree (hwf : s.wf = true) (h : s.keysAgree) : s.ListedKeys := by
  obtain ⟨-, -, -, hcontexts, -⟩ := State.restartTables_wf hwf
  refine ⟨fun x hx => ?_⟩
  have hread : s.context x.1 = x.2 := ((Table.mem_iff hcontexts x.1 x.2).1 hx).1
  exact hread ▸ h x.1

theorem State.ListedKeys.of_contexts (h : s.ListedKeys) (ht : t.contexts = s.contexts := by simp) : t.ListedKeys :=
  ⟨by rw [ht]; exact h.listed⟩

theorem State.ListedKeys.setContext (h : s.ListedKeys) (j : Nat) {v : Context}
    (hv : (s.context j).keysAgree → v.keysAgree) : (s.setContext j v).ListedKeys := by
  refine ⟨fun x hx => ?_⟩
  rcases Table.mem_set hx with rfl | ⟨hx, -⟩
  · exact hv (h.keysAgree j)
  · exact h.listed x hx

/-- A write of what the law does not read; that it does not is checked by evaluation. -/
theorem State.ListedKeys.writeContext (h : s.ListedKeys) (j : Nat) {v : Context}
    (hopen : v.isOpen = (s.context j).isOpen := by rfl) (hstaged : v.staged = (s.context j).staged := by rfl)
    (htx : v.txGeneration = (s.context j).txGeneration := by rfl)
    (hrx : v.rxGeneration = (s.context j).rxGeneration := by rfl) : (s.setContext j v).ListedKeys :=
  h.setContext j fun hkeys => hkeys.congr hopen hstaged htx hrx

theorem State.ListedKeys.setPosition (h : s.ListedKeys) (p : Nat) (v : Position) : (s.setPosition p v).ListedKeys :=
  h.of_contexts

theorem State.ListedKeys.report (h : s.ListedKeys) (r : Report) : (s.report r).ListedKeys := h.of_contexts

theorem State.ListedKeys.reportStagedTaken (h : s.ListedKeys) (j p : Nat) (g : Generation) (otherTaken : Bool) :
    (s.reportStagedTaken j p g otherTaken).ListedKeys := by
  unfold State.reportStagedTaken
  split
  · exact h.report _
  · exact h

/-! ### The end of a call (R58, R63, R120, R128) -/

theorem State.ListedKeys.releaseContext (h : s.ListedKeys) (j : Nat) (call : Call) :
    (s.releaseContext j call).ListedKeys :=
  (h.setContext j (v := { s.context j with call := none, staged := none, window := [] })
    fun _ => Context.keysAgree_of_free rfl rfl).of_contexts rfl

theorem State.ListedKeys.closeContext (h : s.ListedKeys) (j : Nat) (cause : CloseCause) :
    (s.closeContext j cause).ListedKeys := by
  unfold State.closeContext
  split
  · exact h
  · exact (h.releaseContext j _).report _

theorem State.ListedKeys.closeContextOf (h : s.ListedKeys) (e : Nat) (cause : CloseCause) :
    (s.closeContextOf e cause).ListedKeys := by
  unfold State.closeContextOf
  split
  · exact h
  · exact h.closeContext _ cause

theorem State.ListedKeys.endAdmission (h : s.ListedKeys) (e : Nat) (cause : CloseCause) (state : EntryState) :
    (s.endAdmission e cause state).ListedKeys := (h.closeContextOf e cause).of_contexts (State.contexts_unbind _ e)

theorem State.ListedKeys.dropCandidate (h : s.ListedKeys) (e : Nat) : (s.dropCandidate e).ListedKeys := h.of_contexts

theorem State.listedKeys_restartCalls (s : State) : s.restartCalls.ListedKeys := by
  refine ⟨fun x hx => ?_⟩
  simp only [State.restartCalls, Table.mapAll, List.mem_filter, List.mem_map] at hx
  obtain ⟨⟨y, -, rfl⟩, -⟩ := hx
  exact Context.keysAgree_of_free rfl rfl

/-! ### The transmit side (R130 to R134) -/

theorem State.ListedKeys.txCommit (h : s.ListedKeys) {j : Nat} (hopen : (s.context j).isOpen = true) (call : Call)
    {k : StagedKey} (hstaged : (s.context j).staged = some k) (hfresh : k.txTaken = false) :
    (s.txCommit j call k).ListedKeys :=
  State.ListedKeys.reportStagedTaken (State.ListedKeys.report
    (h.setContext j fun hkeys => hkeys.txTaken hstaged hfresh hopen (by rfl) (by rfl) (by rfl) (by rfl)) _) _ _ _ _

theorem State.ListedKeys.txSkip (h : s.ListedKeys) (j : Nat) (call : Call) (reason : SkipReason) :
    (s.txSkip j call reason).ListedKeys := by
  unfold State.txSkip
  dsimp only
  split
  · exact h
  · exact (h.writeContext j).report _

theorem State.ListedKeys.rekeyDecision (h : s.ListedKeys) {j : Nat} (hopen : (s.context j).isOpen = true) (call : Call) :
    (s.rekeyDecision j call).ListedKeys := by
  unfold State.rekeyDecision
  split
  · exact h.txSkip _ _ _
  · next k hstaged =>
    split
    · exact h.txSkip _ _ _
    · next hfresh => exact h.txCommit hopen call hstaged (by simpa using hfresh)

theorem State.ListedKeys.txAdvance (h : s.ListedKeys) (j : Nat) : (s.txAdvance j).ListedKeys := by
  unfold State.txAdvance
  split
  · exact h
  · next call hcall =>
    have hadvanced := h.writeContext j (v := { s.context j with txFrame := (s.context j).txFrame + 1 })
    unfold State.txStep
    dsimp only
    split
    · exact hadvanced.rekeyDecision (State.isOpen_setContext (Context.isOpen_of_call hcall)) call
    · exact hadvanced

/-! ### The receive side (R142 to R150) -/

theorem State.ListedKeys.rxCommit (h : s.ListedKeys) {j : Nat} (hopen : (s.context j).isOpen = true) (call : Call)
    {k : StagedKey} (hstaged : (s.context j).staged = some k) (hfresh : k.rxTaken = false) :
    (s.rxCommit j call k ((s.context j).rxGeneration + 1)).ListedKeys :=
  State.ListedKeys.reportStagedTaken (State.ListedKeys.report
    (h.setContext j fun hkeys => hkeys.rxTaken hstaged hfresh hopen (by rfl) (by rfl) (by rfl) (by rfl)) _) _ _ _ _

theorem State.ListedKeys.enterKeyWait (h : s.ListedKeys) (j : Nat) (call : Call) (before : SyncState)
    (cause : KeyMissCause) (g : Generation) : (s.enterKeyWait j call before cause g).ListedKeys := by
  unfold State.enterKeyWait
  dsimp only
  split
  · exact h.writeContext j
  · exact (h.writeContext j).report _

theorem Context.rxTakeable_eq_some {c : Context} {k : StagedKey} :
    c.rxTakeable = some k ↔ c.staged = some k ∧ k.rxTaken = false := by
  simp [Context.rxTakeable, Option.filter_eq_some_iff]

/-- The receive side commits only the generation after its own (R149). -/
theorem State.ListedKeys.generationCheck (h : s.ListedKeys) {j : Nat} (hopen : (s.context j).isOpen = true) (call : Call)
    (before : SyncState) (g : Generation) : (s.generationCheck j call before g).ListedKeys := by
  unfold State.generationCheck
  dsimp only
  split
  · exact h.writeContext j
  · split
    · next hnext =>
      split
      · next k htakeable =>
        obtain ⟨hstaged, hfresh⟩ := Context.rxTakeable_eq_some.1 htakeable
        subst hnext
        exact h.rxCommit hopen call hstaged hfresh
      · exact h.enterKeyWait _ _ _ _ _
    · exact h.enterKeyWait _ _ _ _ _

theorem State.ListedKeys.recognise (h : s.ListedKeys) {j : Nat} (hopen : (s.context j).isOpen = true) (call : Call)
    (b : FoundBurst) : (s.recognise j call b).ListedKeys := by
  have hseen : (s.setContext j ((s.context j).recognised b)).ListedKeys := h.writeContext j
  have hslipped : (s.setContext j ((s.context j).recognised b).slipped).ListedKeys := h.writeContext j
  have hopen' : ((s.setContext j ((s.context j).recognised b)).context j).isOpen = true := State.isOpen_setContext hopen
  have hopen'' : ((s.setContext j ((s.context j).recognised b).slipped).context j).isOpen = true :=
    State.isOpen_setContext hopen
  unfold State.recognise
  dsimp only
  split
  · exact (hseen.report _).generationCheck (State.isOpen_report hopen' _) call _ _
  · exact hseen.generationCheck hopen' call _ _
  · exact hseen.generationCheck hopen' call _ _
  · split
    · exact hseen.generationCheck hopen' call _ _
    · exact (hslipped.report _).generationCheck (State.isOpen_report hopen'' _) call _ _

theorem State.ListedKeys.countMiss (h : s.ListedKeys) (j : Nat) (call : Call) : (s.countMiss j call).ListedKeys := by
  unfold State.countMiss
  dsimp only
  split
  · exact h.writeContext j
  · exact (h.writeContext j).report _

theorem State.ListedKeys.receive (h : s.ListedKeys) {j : Nat} (hopen : (s.context j).isOpen = true) (call : Call)
    (code : Byte) : (s.receive j call code).ListedKeys := by
  have hnumbered : (s.context j).numbered.staged = (s.context j).staged ∧
      (s.context j).numbered.txGeneration = (s.context j).txGeneration ∧
      (s.context j).numbered.rxGeneration = (s.context j).rxGeneration := by
    unfold Context.numbered
    split <;> exact ⟨rfl, rfl, rfl⟩
  obtain ⟨hstaged, htx, hrx⟩ := hnumbered
  have hcall := Context.isOpen_numbered (s.context j)
  have hjoined := h.writeContext j
    (v := { (s.context j).numbered with window := windowAfter (s.context j).numbered.window code }) hcall hstaged htx hrx
  unfold State.receive State.decideArrival
  dsimp only
  split
  · exact hjoined.recognise (State.isOpen_setContext (hcall.trans hopen)) call _
  · split
    · exact hjoined.countMiss j call
    · exact hjoined

/-! ### Arrivals and the events of a boundary (R34, R42 to R46, R130, R131) -/

theorem State.ListedKeys.downstream (h : s.ListedKeys) (p : Nat) (code looped : Byte) :
    (s.downstream p code looped).ListedKeys := by
  unfold State.downstream
  cases heff : s.effective p with
  | lineLoop => exact h
  | switchLoop | pending | mute | clear | tone => exact h.of_contexts rfl
  | scrambled shape j call =>
    have hopen := Context.isOpen_of_call (State.call_of_effective heff)
    exact ((h.setPosition p _).setPosition p _).receive hopen call _

theorem State.ListedKeys.upstream (h : s.ListedKeys) (p : Nat) (code : Byte) : (s.upstream p code).ListedKeys :=
  h.of_contexts

theorem State.ListedKeys.supplyUp (h : s.ListedKeys) (p : Nat) : (s.supplyUp p).ListedKeys := h.of_contexts

theorem State.ListedKeys.supplyDown (h : s.ListedKeys) (p : Nat) : (s.supplyDown p).ListedKeys := by
  unfold State.supplyDown
  split
  · exact State.ListedKeys.downstream (h.of_contexts (by rfl)) p 255 255
  · exact h

theorem State.ListedKeys.supplyBoth (h : s.ListedKeys) (p : Nat) : (s.supplyBoth p).ListedKeys :=
  (h.supplyUp p).supplyDown p

theorem State.ListedKeys.takeTx (h : s.ListedKeys) (j : Nat) : (s.takeTx j).ListedKeys := by
  unfold State.takeTx
  split
  · dsimp only
    split
    · exact h.of_contexts rfl
    · exact (State.ListedKeys.supplyUp (h.of_contexts (by rfl)) _).txAdvance j
  · exact h

theorem State.ListedKeys.upstreamCarried (h : s.ListedKeys) (p : Nat) (code : Byte) :
    (s.upstreamCarried p code).ListedKeys := by
  have hadvanced : ((s.supplyBoth p).advanceTxAt p).ListedKeys := by
    rcases (s.supplyBoth p).advanceTxAt_cases p with heq | ⟨_, j, _, _, heq⟩
    · rw [heq]; exact h.supplyBoth p
    · rw [heq]; exact (h.supplyBoth p).takeTx j
  exact ((hadvanced.setPosition p _).upstream p code).setPosition p _

theorem State.ListedKeys.downstreamCarried (h : s.ListedKeys) (p : Nat) (code : Byte) :
    (s.downstreamCarried p code).ListedKeys := by
  have hbefore : (s.supplyBoth p).beforeDownstream.ListedKeys :=
    (h.supplyBoth p).of_contexts (State.contexts_beforeDownstream _)
  exact ((hbefore.setPosition p _).downstream p code _).setPosition p _

theorem State.ListedKeys.driveSlot (h : s.ListedKeys) (p : Nat) (side : Side) : (s.driveSlot p side).ListedKeys :=
  (h.supplyBoth p).setPosition p _

/-! ### Deadlines and outcomes (R86, R87, R96 to R105, R108) -/

theorem State.ListedKeys.takeAnswerDeadline (h : s.ListedKeys) (e : Nat) : (s.takeAnswerDeadline e).ListedKeys := by
  unfold State.takeAnswerDeadline State.answerTimeout
  split
  · exact h
  · next c _ =>
    have hremoved : (s.removeCandidate e c.position).ListedKeys := h.of_contexts
    split
    · dsimp only
      split
      · exact hremoved.of_contexts
      · exact hremoved.of_contexts
      · exact (hremoved.endAdmission e .renewTimeout .absent).of_contexts
    · exact h

theorem State.ListedKeys.takeRefresh (h : s.ListedKeys) (e : Nat) : (s.takeRefresh e).ListedKeys := by
  have hended := (h.dropCandidate e).endAdmission e .lapsed .absent
  unfold State.takeRefresh State.lapse
  split
  · dsimp only
    split
    · exact hended
    · exact hended.of_contexts
  · exact h

theorem State.ListedKeys.displaceOwner (h : s.ListedKeys) (p e : Nat) : (s.displaceOwner p e).ListedKeys := by
  unfold State.displaceOwner
  split
  · exact h
  · next x _ =>
    split
    · exact h
    · exact ((h.dropCandidate x).endAdmission x _ _).report _

theorem State.ListedKeys.leaveHome (h : s.ListedKeys) (e p : Nat) : (s.leaveHome e p).ListedKeys := by
  unfold State.leaveHome
  split
  · exact h
  · exact (h.closeContextOf e .moved).of_contexts

theorem State.ListedKeys.applyMatch (h : s.ListedKeys) (e p : Nat) (kind : CandidateKind) :
    (s.applyMatch e p kind).ListedKeys := by
  cases kind with
  | first => exact (h.displaceOwner p e).of_contexts (State.contexts_welcome _ e p false)
  | move => exact ((h.leaveHome e p).displaceOwner p e).of_contexts (State.contexts_welcome _ e p false)
  | renew => exact h.of_contexts (State.contexts_welcome _ e p true)

theorem State.ListedKeys.barForFailures (h : s.ListedKeys) (e p : Nat) (kind : CandidateKind) :
    (s.barForFailures e p kind).ListedKeys := by
  have hended := h.endAdmission e .barred .barred
  unfold State.barForFailures
  dsimp only
  split
  · exact hended.of_contexts
  · exact hended.report _
  · exact h.of_contexts

theorem State.ListedKeys.endRenewal (h : s.ListedKeys) (e : Nat) (kind : CandidateKind) :
    (s.endRenewal e kind).ListedKeys := by
  cases kind with
  | first | move => exact h
  | renew => exact h.endAdmission e _ _

theorem State.ListedKeys.applyMismatch (h : s.ListedKeys) (e p : Nat) (kind : CandidateKind) :
    (s.applyMismatch e p kind).ListedKeys := by
  have hcounted : (s.setEntry e { s.entry e with failures := saturatingNext 7 (s.entry e).failures }).ListedKeys :=
    h.of_contexts
  unfold State.applyMismatch
  dsimp only
  split
  · exact (hcounted.barForFailures e p kind).of_contexts
  · exact (hcounted.endRenewal e kind).of_contexts

theorem State.ListedKeys.completeItem (h : s.ListedKeys) (f : FlightItem) : (s.completeItem f).ListedKeys := by
  unfold State.completeItem
  split
  · exact h
  · split
    · exact h
    · next c _ =>
      have hremoved : (s.removeCandidate f.item.entry f.item.position).ListedKeys := h.of_contexts
      cases f.verdict with
      | matched => exact hremoved.applyMatch _ _ _
      | mismatch => exact hremoved.applyMismatch _ _ _
      | notReady => exact (hremoved.endRenewal _ _).of_contexts (State.contexts_report _ _)

theorem State.ListedKeys.completeItems (n : Nat) (h : s.ListedKeys) : (State.completeItems n s).ListedKeys := by
  induction n generalizing s with
  | zero => exact h
  | succ n ih =>
    unfold State.completeItems
    split
    · exact h
    · exact ih (State.ListedKeys.completeItem (h.of_contexts (by rfl)) _)

theorem State.ListedKeys.complete (h : s.ListedKeys) : s.complete.ListedKeys := by
  unfold State.complete
  split
  · exact h
  · exact State.ListedKeys.completeItems _ (h.of_contexts s.contexts_takeSecond)

/-- All that a boundary brings about (assumption 2). -/
theorem State.ListedKeys.finishBoundary (h : s.ListedKeys) : s.finishBoundary.ListedKeys :=
  State.finishBoundary_keeps (P := State.ListedKeys) (fun _ p hv => hv.supplyUp p) (fun _ p hv => hv.supplyDown p)
    (fun v hv => hv.of_contexts v.contexts_takeSecond) (fun _ hv => hv.complete)
    (fun v hv => hv.of_contexts v.contexts_takeVerifications) (fun v p hv => hv.of_contexts (v.contexts_takeHoldOff p))
    (fun _ e hv => hv.takeAnswerDeadline e) (fun _ e hv => hv.takeRefresh e)
    (fun v e hv => hv.of_contexts (v.contexts_takeRechallenge e)) (fun _ j hv => hv.takeTx j)
    (fun v c hv => hv.of_contexts (v.contexts_takePlayout c)) (fun v i hv => hv.of_contexts (v.contexts_takeLineCell i))
    (fun v hv => hv.of_contexts v.contexts_takeReport) h

theorem State.ListedKeys.crossBoundary (h : s.ListedKeys) (cut : Bool) : (s.crossBoundary cut).ListedKeys :=
  h.of_contexts rfl

theorem State.ListedKeys.framePulse (h : s.ListedKeys) (early : Bool) : (s.framePulse early).ListedKeys := by
  unfold State.framePulse
  split
  · exact h.of_contexts s.contexts_firstPulse
  · exact h.finishBoundary.crossBoundary _
  · exact h.finishBoundary.crossBoundary _

/-! ### Cells (R58 to R61, R90, R117, R121, R124, R170) -/

theorem State.ListedKeys.signOffAt (h : s.ListedKeys) (p : Nat) : (s.signOffAt p).ListedKeys := by
  have howner : State.ListedKeys
      (match (s.position p).owner with
        | none => s
        | some e => s.signOffOwner p e) := by
    split
    · exact h
    · exact ((h.dropCandidate _).endAdmission _ _ _).report _
  unfold State.signOffAt
  dsimp only
  split
  · exact howner.of_contexts rfl
  · exact howner.of_contexts (State.contexts_dropCandidate _ _)

theorem State.ListedKeys.accept (h : s.ListedKeys) (tag : Byte) (values : Accepted) : (s.accept tag values).ListedKeys :=
  h.of_contexts

theorem State.ListedKeys.refuse (h : s.ListedKeys) (tag : Byte) (kind : Nat) (reason : Reason) :
    (s.refuse tag kind reason).ListedKeys := h.of_contexts

theorem State.ListedKeys.removeEntry (h : s.ListedKeys) (e : Nat) (cause : CloseCause) (state : EntryState) :
    (s.removeEntry e cause state).ListedKeys := by
  unfold State.removeEntry State.forceOff
  cases (s.entry e).state with
  | admitted =>
    have hended := (h.dropCandidate e).endAdmission e cause state
    dsimp only
    split
    · exact hended
    · exact hended.of_contexts
  | absent | barred | unloaded => exact (h.dropCandidate e).of_contexts rfl

theorem State.ListedKeys.unloadExtension (h : s.ListedKeys) (tag : Byte) (e : Nat) :
    (s.unloadExtension tag e).ListedKeys := by
  unfold State.unloadExtension
  split
  · exact h.refuse _ _ _
  · split
    · exact h.refuse _ _ _
    · exact ((h.accept _ _).removeEntry e _ _).of_contexts rfl

theorem State.ListedKeys.forceSignOff (h : s.ListedKeys) (tag : Byte) (e : Nat) : (s.forceSignOff tag e).ListedKeys := by
  unfold State.forceSignOff
  split
  · exact h.refuse _ _ _
  · split
    · exact h.refuse _ _ _
    · split
      · exact h.refuse _ _ _
      · exact (h.accept _ _).removeEntry e _ _

theorem State.ListedKeys.barEntry (h : s.ListedKeys) (tag : Byte) (e : Nat) : (s.barEntry tag e).ListedKeys := by
  unfold State.barEntry
  split
  · exact h.refuse _ _ _
  · split
    · exact h.refuse _ _ _
    · exact (h.accept _ _).removeEntry e _ _

/-- A new staged key has no mark, and the one that it replaces stood on a context whose sides are level (R124). -/
theorem State.ListedKeys.stagedHalf (h : s.ListedKeys) (tag : Byte) (half : Half) (j : Nat) (first second : KeyWord) :
    (s.stagedHalf tag half j first second).ListedKeys := by
  have hwritten (joined : Option Key) (hbusy : (s.context j).stagedBusy = false) :
      (s.setContext j { s.context j with staged := joined.map fun k => ⟨k, false, false⟩ }).ListedKeys := by
    refine h.setContext j fun hkeys => Context.keysAgree_unmarked (fun k hk => ?_) fun hopen => hkeys.generations hopen hbusy
    obtain ⟨key, -, rfl⟩ := Option.map_eq_some_iff.1 hk
    exact ⟨rfl, rfl⟩
  unfold State.stagedHalf
  split
  · exact h.refuse _ _ _
  · split
    · exact h.refuse _ _ _
    · next hbusy => exact (hwritten _ (by simpa using hbusy)).of_contexts (by simp; rfl)

theorem State.ListedKeys.openContext (h : s.ListedKeys) (tag : Byte) (j p e : Nat) (loop : Bool) (key : Key) :
    (s.openContext tag j p e loop key).ListedKeys :=
  (h.setContext j (v := (s.context j).opened p e loop key)
    fun _ => Context.keysAgree_unmarked nofun fun _ => rfl).of_contexts (State.contexts_accept _ _ _)

theorem State.ListedKeys.openCallAt (h : s.ListedKeys) (tag : Byte) (j p : Nat) (loop : Bool) :
    (s.openCallAt tag j p loop).ListedKeys := by
  unfold State.openCallAt
  split
  · exact h.refuse _ _ _
  · split
    · exact h.refuse _ _ _
    · split
      · exact h.refuse _ _ _
      · split
        · exact h.refuse _ _ _
        · split
          · exact h.refuse _ _ _
          · exact h.openContext _ _ _ _ _ _

theorem State.ListedKeys.openCall (h : s.ListedKeys) (tag : Byte) (j p flag : Nat) :
    (s.openCall tag j p flag).ListedKeys := by
  unfold State.openCall
  split
  · exact h.refuse _ _ _
  · split
    · exact h.refuse _ _ _
    · split
      · exact h.refuse _ _ _
      · split
        · exact h.refuse _ _ _
        · exact h.openCallAt _ _ _ _

theorem State.ListedKeys.closeCall (h : s.ListedKeys) (tag : Byte) (j : Nat) : (s.closeCall tag j).ListedKeys := by
  unfold State.closeCall
  split
  · exact h.refuse _ _ _
  · exact (h.accept _ _).closeContext j _

theorem State.ListedKeys.restart (h : s.ListedKeys) (tag : Byte) (scope : Nat) : (s.restart tag scope).ListedKeys := by
  unfold State.restart
  split
  · exact h.refuse _ _ _
  · exact (s.listedKeys_restartCalls.report _).accept _ _
  · exact (State.ListedKeys.report (s.listedKeys_restartCalls.of_contexts (by rfl)) _).accept _ _

/-! ### The commands -/

theorem State.ListedKeys.of_whilePulsed (h : s.ListedKeys) {effect : State → State}
    (hnext : s.whilePulsed effect = .next t) (he : (effect s).ListedKeys) : t.ListedKeys := by
  obtain rfl := Host.Outcome.next.inj hnext
  split
  · exact h
  · exact he

/-- A management cell acts on what the boundary leaves. -/
theorem State.ListedKeys.of_managementCell (h : s.ListedKeys) {effect : State → State}
    (hnext : s.managementCell effect = .next t) (he : ∀ v, v.ListedKeys → (effect v).ListedKeys) : t.ListedKeys :=
  h.of_whilePulsed hnext (he _ h.finishBoundary)

/-- So does a line cell whose slot is a speech slot. -/
theorem State.ListedKeys.of_lineCell (h : s.ListedKeys) {highway slot : Nat} {effect : Nat → State → State}
    (hnext : s.lineCell highway slot effect = .next t) (he : ∀ p v, v.ListedKeys → (effect p v).ListedKeys) :
    t.ListedKeys := by
  refine h.of_whilePulsed hnext ?_
  split
  · exact he _ _ h.finishBoundary
  · exact h

theorem exec_keeps_keys {c : Instr} (hs : s.ListedKeys) (h : exec c s = .next t) : t.ListedKeys := by
  cases c
  all_goals simp only [exec] at h
  case hardwareReset => obtain rfl := Host.Outcome.next.inj h; exact ⟨List.forall_mem_nil _⟩
  case firstFramePulse => obtain rfl := Host.Outcome.next.inj h; exact hs.framePulse false
  case frameBoundary cut => obtain rfl := Host.Outcome.next.inj h; exact hs.framePulse cut
  case framePulseAbsent loss =>
    unfold execFramePulseAbsent at h
    split at h
    all_goals obtain rfl := Host.Outcome.next.inj h; exact hs.of_contexts rfl
  case lineIdle | lineCellDiscarded | managementIdle => obtain rfl := Host.Outcome.next.inj h; exact hs
  case secondCountAdvance => exact hs.of_whilePulsed h (hs.of_contexts s.contexts_takeSecond)
  case verificationTake => exact hs.of_whilePulsed h (hs.of_contexts s.contexts_takeVerifications)
  case verificationComplete => exact hs.of_whilePulsed h hs.complete
  case lineReplySend i => exact hs.of_whilePulsed h (hs.of_contexts (s.contexts_takeLineCell i.val))
  case reportSend => exact hs.of_whilePulsed h (hs.of_contexts s.contexts_takeReport)
  case upstreamArrival p arrival =>
    cases arrival with
    | carried code => exact hs.of_whilePulsed h (hs.upstreamCarried _ _)
    | supplied => exact hs.of_whilePulsed h (hs.supplyUp _)
  case downstreamArrival p arrival =>
    cases arrival with
    | carried code => exact hs.of_whilePulsed h (hs.downstreamCarried _ _)
    | supplied => exact hs.of_whilePulsed h (hs.supplyDown _)
  case txFrameAdvance => exact hs.of_whilePulsed h (hs.takeTx _)
  case playoutAdvance c => exact hs.of_whilePulsed h (hs.of_contexts (s.contexts_takePlayout c.val))
  case holdOffDeadline p => exact hs.of_whilePulsed h (hs.of_contexts (s.contexts_takeHoldOff p.val))
  case answerDeadline => exact hs.of_whilePulsed h (hs.takeAnswerDeadline _)
  case refreshLapse => exact hs.of_whilePulsed h (hs.takeRefresh _)
  case rechallengeDeadline e => exact hs.of_whilePulsed h (hs.of_contexts (s.contexts_takeRechallenge e.val))
  case waitingCodeSent => exact hs.of_whilePulsed h (hs.driveSlot _ _)
  case signOn => exact hs.of_lineCell h fun _ v hv => hv.of_contexts (v.contexts_signOnAt _ _)
  case answer => exact hs.of_lineCell h fun _ v hv => hv.of_contexts (v.contexts_answerAt _ _)
  case keepalive => exact hs.of_lineCell h fun _ v hv => hv.of_contexts (v.contexts_keepaliveAt _)
  case signOff => exact hs.of_lineCell h fun _ _ hv => hv.signOffAt _
  case unknownKind => exact hs.of_managementCell h fun _ hv => hv.refuse _ _ _
  case loadExtension => exact hs.of_managementCell h fun v hv => hv.of_contexts (v.contexts_loadExtension _ _ _ _)
  case unloadExtension => exact hs.of_managementCell h fun _ hv => hv.unloadExtension _ _
  case secretHalf => exact hs.of_managementCell h fun v hv => hv.of_contexts (v.contexts_secretHalf _ _ _ _ _)
  case forceSignOff => exact hs.of_managementCell h fun _ hv => hv.forceSignOff _ _
  case bar => exact hs.of_managementCell h fun _ hv => hv.barEntry _ _
  case unbar => exact hs.of_managementCell h fun v hv => hv.of_contexts (v.contexts_unbarEntry _ _)
  case setGroupLimits => exact hs.of_managementCell h fun v hv => hv.of_contexts (v.contexts_setGroupLimits _ _ _ _)
  case setGroupTimes => exact hs.of_managementCell h fun v hv => hv.of_contexts (v.contexts_setGroupTimes _ _ _ _)
  case stagedHalf => exact hs.of_managementCell h fun _ hv => hv.stagedHalf _ _ _ _ _
  case openCall => exact hs.of_managementCell h fun _ hv => hv.openCall _ _ _ _
  case closeCall => exact hs.of_managementCell h fun _ hv => hv.closeCall _ _
  case setPositionTreatment =>
    exact hs.of_managementCell h fun v hv => hv.of_contexts (v.contexts_setPositionTreatment _ _ _ _)
  case setPositionGain => exact hs.of_managementCell h fun v hv => hv.of_contexts (v.contexts_setPositionGain _ _ _ _)
  case loadPattern => exact hs.of_managementCell h fun v hv => hv.of_contexts (v.contexts_loadPattern _ _ _ _ _ _)
  case setPlayout => exact hs.of_managementCell h fun v hv => hv.of_contexts (v.contexts_setPlayout _ _ _ _ _ _)
  case stopPlayout => exact hs.of_managementCell h fun v hv => hv.of_contexts (v.contexts_stopPlayout _ _)
  case setDevice => exact hs.of_managementCell h fun v hv => hv.of_contexts (v.contexts_setDevice _ _ _)
  case read => exact hs.of_managementCell h fun v hv => hv.of_contexts (v.contexts_readPage _ _ _ _)
  case restartCalls => exact hs.of_managementCell h fun _ hv => hv.restart _ _
  case restartAll => exact hs.of_managementCell h fun _ hv => hv.restart _ _

theorem step_keeps_keys (h : step s = .next t) (hs : s.ListedKeys) : t.ListedKeys := by
  unfold step at h
  split at h
  · obtain rfl := Host.Outcome.next.inj h
    exact hs
  · exact exec_keeps_keys (hs.of_contexts (by rfl)) h

/-- Settles O56: the law at the listed contexts is the law at all of them, and every command keeps it. -/
theorem everyStepKeepsStagedKeys : Obligations.EveryStepKeepsStagedKeys := fun _ _ hwf hkeys hstep =>
  (step_keeps_keys hstep (State.listedKeys_of_keysAgree hwf hkeys)).keysAgree

end Sys2Proof.Machine
end

section
/-! The refusals of OPEN CALL (R117), and the transmit side at a boundary (R125, R130 to R134). -/

namespace Sys2Proof.Machine

variable {s : State}

/-! ### OPEN CALL (R117) -/

theorem loopOfCode_none {flag : Nat} (h : 1 < flag) : loopOfCode flag = none := by
  unfold loopOfCode
  split
  · omega
  · omega
  · rfl

/-- No staged key that an OPEN CALL may load: none at all, or one that a side has taken (R117). -/
theorem Context.freshKey_none {c : Context} (h : ∀ k, c.staged = some k → k.txTaken = true ∨ k.rxTaken = true) :
    c.freshKey = none := by
  unfold Context.freshKey
  cases hstaged : c.staged with
  | none => rfl
  | some k =>
    rcases h k hstaged with htx | hrx
    · simp [Option.filter, htx]
    · simp [Option.filter, hrx]

theorem exec_openCall (h : s.inFrame) (tag : Byte) (j p flag : Nat) :
    exec (.openCall tag j p flag) s = .next (s.openCall tag j p flag) :=
  State.managementCell_inFrame h fun v => v.openCall tag j p flag

section

variable (tag : Byte) {j p e flag : Nat} (loop : Bool)

theorem State.openCall_inUse (hj : j ≤ 255) (hopen : (s.context j).call ≠ none) :
    s.openCall tag j p flag = s.refuse tag 10 .inUse := by
  rw [State.openCall, if_neg (Nat.not_lt.2 hj), if_pos (by exact Option.isSome_iff_ne_none.2 hopen)]

theorem State.openCall_badIndex (hj : j ≤ 255) (hfree : (s.context j).call = none) (hp : 479 < p) :
    s.openCall tag j p flag = s.refuse tag 10 .badIndex := by
  simp [State.openCall, Nat.not_lt.2 hj, Context.isOpen, hfree, hp]

theorem State.openCall_badValue (hj : j ≤ 255) (hfree : (s.context j).call = none) (hp : p ≤ 479) (hflag : 1 < flag) :
    s.openCall tag j p flag = s.refuse tag 10 .badValue := by
  simp [State.openCall, Nat.not_lt.2 hj, Context.isOpen, hfree, Nat.not_lt.2 hp, loopOfCode_none hflag]

/-- An OPEN CALL that passes its first four checks. -/
theorem State.openCall_of_fields (hj : j ≤ 255) (hfree : (s.context j).call = none) (hp : p ≤ 479) (hflag : flag ≤ 1) :
    s.openCall tag j p flag = s.openCallAt tag j p (decide (flag = 1)) := by
  simp [State.openCall, Nat.not_lt.2 hj, Context.isOpen, hfree, Nat.not_lt.2 hp, loopOfCode_of_le hflag]

theorem State.openCallAt_notAdmitted (howner : (s.position p).owner = none) :
    s.openCallAt tag j p loop = s.refuse tag 10 .notAdmitted := by
  simp [State.openCallAt, howner]

theorem State.openCallAt_looped (howner : (s.position p).owner = some e)
    (hloop : (s.position p).requested.isLoop = true) : s.openCallAt tag j p loop = s.refuse tag 10 .looped := by
  simp [State.openCallAt, howner, hloop]

theorem State.openCallAt_busy (howner : (s.position p).owner = some e)
    (hloop : (s.position p).requested.isLoop = false) (hbusy : ¬ s.noCallAt p) :
    s.openCallAt tag j p loop = s.refuse tag 10 .positionBusy := by
  have hsome : (s.openContextAt p).isSome = true :=
    Option.isSome_iff_ne_none.2 (mt (s.openContextAt_eq_none_iff p).1 hbusy)
  simp [State.openCallAt, howner, hloop, hsome]

theorem State.openCallAt_noKey (howner : (s.position p).owner = some e)
    (hloop : (s.position p).requested.isLoop = false) (hidle : s.noCallAt p) (hkey : (s.context j).freshKey = none) :
    s.openCallAt tag j p loop = s.refuse tag 10 .noKey := by
  simp [State.openCallAt, howner, hloop, (s.openContextAt_eq_none_iff p).2 hidle, hkey]

theorem State.openCallAt_groupFull {key : Key} (howner : (s.position p).owner = some e)
    (hloop : (s.position p).requested.isLoop = false) (hidle : s.noCallAt p) (hkey : (s.context j).freshKey = some key)
    (hfull : (s.groupOf e).budget ≤ (s.groupOf e).inUse) :
    s.openCallAt tag j p loop = s.refuse tag 10 .groupFull := by
  simp [State.openCallAt, howner, hloop, (s.openContextAt_eq_none_iff p).2 hidle, hkey, hfull]

end

/-- Settles O33: each clause passes the checks before its own, which is then decided. -/
theorem openCallIsChecked : Obligations.OpenCallIsChecked := by
  intro tag j p flag s hframe hj
  rw [exec_openCall hframe]
  refine ⟨fun hopen => congrArg _ (State.openCall_inUse tag hj hopen),
    fun hfree hp => congrArg _ (State.openCall_badIndex tag hj hfree hp),
    fun hfree hp hflag => congrArg _ (State.openCall_badValue tag hj hfree hp hflag), fun hfree hp hflag => ?_⟩
  rw [State.openCall_of_fields tag hj hfree hp hflag]
  refine ⟨fun howner => congrArg _ (State.openCallAt_notAdmitted tag _ howner), fun e howner =>
    ⟨fun hloop => congrArg _ (State.openCallAt_looped tag _ howner ?_), fun hloop => ⟨fun k hk hopen =>
      congrArg _ (State.openCallAt_busy tag _ howner hloop fun hidle => hopen (hidle k hk)), fun hidle =>
        ⟨fun htaken => congrArg _ (State.openCallAt_noKey tag _ howner hloop hidle (Context.freshKey_none htaken)),
          fun k hstaged htx hrx hfull => ?_⟩⟩⟩⟩
  · rcases hloop with hloop | hloop <;> rw [hloop] <;> rfl
  · obtain ⟨key, tx, rx⟩ := k
    obtain rfl : tx = false := htx
    obtain rfl : rx = false := hrx
    exact congrArg _ (State.openCallAt_groupFull tag _ howner hloop hidle (Context.freshKey_of_staged hstaged) hfull)

/-! ### The transmit side's advance (R130, R132) -/

theorem exec_txFrameAdvance (h : s.pulsed) (j : Fin 256) : exec (.txFrameAdvance j) s = .next (s.takeTx j.val) :=
  State.whilePulsed_of_pulsed h fun v => v.takeTx j.val

/-- The state with other events of the last boundary still to come. -/
def State.withBoundary (s : State) (b : Boundary) : State := { s with boundary := b }

/-- The state with other transmit advances due. -/
def State.withTxDue (s : State) (due : List Nat) : State := s.withBoundary { s.boundary with txDue := due }

theorem State.takeTx_free {j : Nat} (hdue : j ∈ s.boundary.txDue) (hfree : (s.context j).call = none) :
    s.takeTx j = s.withTxDue (s.boundary.txDue.erase j) := by
  rw [State.takeTx, if_pos hdue]
  dsimp only
  split
  · rfl
  · next hsome => exact absurd (hfree.symm.trans hsome) nofun

/-- The work of a boundary for an OPEN context: the arrival still owed, then the advance (R130, R131). -/
theorem State.takeTx_open {j : Nat} {call : Call} (hdue : j ∈ s.boundary.txDue) (hcall : (s.context j).call = some call) :
    s.takeTx j = ((s.withTxDue (s.boundary.txDue.erase j)).supplyUp call.position).txAdvance j := by
  rw [State.takeTx, if_pos hdue]
  dsimp only
  split
  · next hnone => exact absurd (hcall.symm.trans hnone) nofun
  · next call' hsome =>
    obtain rfl := Option.some.inj (hcall.symm.trans hsome)
    rfl

theorem rekeyBoundary_iff (settings : Settings) (n : FrameNumber) :
    rekeyBoundary settings n = true ↔
      settings.rekeyMultiple ≠ 0 ∧ n.toNat % (settings.rekeyMultiple * settings.syncSpan) = 0 := by
  simp [rekeyBoundary]

theorem State.txAdvance_open {j : Nat} {call : Call} (hcall : (s.context j).call = some call) :
    s.txAdvance j =
      if rekeyBoundary s.settings ((s.context j).txFrame + 1) then
        (s.setContext j { s.context j with txFrame := (s.context j).txFrame + 1 }).rekeyDecision j call
      else s.setContext j { s.context j with txFrame := (s.context j).txFrame + 1 } := by
  rw [State.txAdvance, hcall]
  rfl

/-- The commit at a rekey boundary, of a key that the receive side may have taken (R125, R133). -/
theorem State.rekeyDecision_commit {j : Nat} (call : Call) {key : Key} {rxTaken : Bool}
    (hstaged : (s.context j).staged = some ⟨key, false, rxTaken⟩) :
    s.rekeyDecision j call =
      ((s.setContext j
          { s.context j with
            call := some { call with txKey := key }, txGeneration := (s.context j).txGeneration + 1
            skipReported := false, staged := if rxTaken then none else some ⟨key, true, false⟩ }).report
        (.txRekeyed j call.position ((s.context j).txGeneration + 1) (s.context j).txFrame)).reportStagedTaken j
          call.position ((s.context j).txGeneration + 1) rxTaken := by
  rw [State.rekeyDecision, hstaged]
  cases rxTaken with
  | false => rfl
  | true => rfl

/-- A rekey boundary without a key to commit (R134). -/
theorem State.rekeyDecision_skip {j : Nat} (call : Call) {reason : SkipReason}
    (hnone : (s.context j).staged = none → reason = .noKey)
    (hsome : (s.context j).staged ≠ none → reason = .notReceived)
    (htaken : ∀ k, (s.context j).staged = some k → k.txTaken = true) :
    s.rekeyDecision j call = s.txSkip j call reason := by
  rw [State.rekeyDecision]
  cases hstaged : (s.context j).staged with
  | none => rw [hnone hstaged]
  | some k =>
    rw [hsome (by rw [hstaged]; nofun)]
    exact if_pos (htaken k hstaged)

/-! ### The arrival that a cut-short frame still owes (R2, R131) -/

/-- What an upstream arrival leaves does not depend on the events of the last boundary, which it keeps. -/
theorem State.upstream_withBoundary (s : State) (b : Boundary) (p : Nat) (code : Byte) :
    (s.withBoundary b).upstream p code = (s.upstream p code).withBoundary b := by
  have heffective : (s.withBoundary b).effective p = s.effective p := rfl
  unfold State.upstream
  rw [heffective]
  cases s.effective p with
  | lineLoop | switchLoop | pending | mute | clear | tone => rfl
  | scrambled shape j call =>
    cases shape with
    | clear | mute | tone => rfl

/-- The owed arrival: its result, and the event struck off (R2). -/
theorem State.supplyUp_owed {p : Nat} (hdue : p ∈ s.boundary.suppliedUp) :
    s.supplyUp p =
      (s.upstream p 255).withBoundary { s.boundary with suppliedUp := s.boundary.suppliedUp.erase p } := by
  rw [State.supplyUp, if_pos hdue]
  exact s.upstream_withBoundary _ p 255

theorem State.boundary_supplyUp {p : Nat} (hdue : p ∈ s.boundary.suppliedUp) :
    (s.supplyUp p).boundary = { s.boundary with suppliedUp := s.boundary.suppliedUp.erase p } := by
  rw [State.supplyUp_owed hdue]
  rfl

/-- The arrival is the same before and after another event has been struck off (assumption 2). -/
theorem State.supplyUp_withTxDue {p : Nat} (hdue : p ∈ s.boundary.suppliedUp) (due : List Nat) :
    (s.withTxDue due).supplyUp p = (s.supplyUp p).withTxDue due := by
  have hdue' : p ∈ (s.withTxDue due).boundary.suppliedUp := hdue
  rw [State.supplyUp_owed hdue', State.supplyUp_owed hdue, State.withTxDue, State.upstream_withBoundary]
  rfl

/-- The transmit side's work after the owed arrival has been taken by its own command (R131, assumption 5). -/
theorem State.takeTx_supplyUp {j : Nat} {call : Call} (hdue : j ∈ s.boundary.txDue)
    (hcall : (s.context j).call = some call) (howed : call.position ∈ s.boundary.suppliedUp)
    (hnodup : s.boundary.suppliedUp.Nodup) : (s.supplyUp call.position).takeTx j = s.takeTx j := by
  have hboundary := State.boundary_supplyUp howed
  have hdue' : j ∈ (s.supplyUp call.position).boundary.txDue := by rw [hboundary]; exact hdue
  have hcall' : ((s.supplyUp call.position).context j).call = some call := by
    rw [State.context, State.contexts_supplyUp]; exact hcall
  have htaken : call.position ∉ (s.supplyUp call.position).boundary.suppliedUp := by
    rw [hboundary]; exact hnodup.not_mem_erase
  have hsame : (s.supplyUp call.position).boundary.txDue = s.boundary.txDue := by rw [hboundary]
  rw [State.takeTx_open hdue hcall, State.takeTx_open hdue' hcall', State.supplyUp_withTxDue howed, hsame,
    State.supplyUp_idle (by exact htaken)]

theorem exec_suppliedUp (h : s.pulsed) (p : Fin 480) :
    exec (.upstreamArrival p .supplied) s = .next (s.supplyUp p.val) :=
  State.whilePulsed_of_pulsed h fun v => v.supplyUp p.val

/-- Settles O36: with no arrival owed, the work is the advance of the state that the event has been struck off. -/
theorem transmitSideAdvances : Obligations.TransmitSideAdvances := by
  refine ⟨fun j call s u n hpulsed hdue hcall hidle hn hu => ?_,
    fun j s hpulsed => ⟨fun hdue => ?_, fun hdue hfree => ?_, ?_⟩⟩
  · have hread : u.context j.val = s.context j.val := by rw [hu]; rfl
    have hsettings : u.settings = s.settings := by rw [hu]
    have hcall' : (u.context j.val).call = some call := hread ▸ hcall
    have hwork : exec (.txFrameAdvance j) s = .next (u.txAdvance j.val) := by
      rw [exec_txFrameAdvance hpulsed, State.takeTx_open hdue hcall, State.supplyUp_idle (by exact hidle), hu]
      rfl
    have hrekey := rekeyBoundary_iff u.settings ((u.context j.val).txFrame + 1)
    rw [hread, ← hn, hsettings] at hrekey
    refine ⟨fun hplain => ?_, fun hmultiple hmark => ?_⟩
    · have hnot : rekeyBoundary s.settings n = false := by
        rw [Bool.eq_false_iff, ne_eq, hrekey]
        tauto
      rw [hwork, State.txAdvance_open hcall', hread, ← hn, hsettings, hnot]
      rfl
    · have hboundary := hrekey.2 ⟨hmultiple, hmark⟩
      rw [hwork, State.txAdvance_open hcall', hread, ← hn, hsettings, if_pos hboundary]
      have hwritten := u.context_setContext_self j.val { s.context j.val with txFrame := n }
      refine ⟨fun key g hg => ⟨fun hstaged => ?_, fun hstaged => ?_⟩, fun reason hnone hsome htaken => ?_⟩
      · rw [State.rekeyDecision_commit call (by rw [hwritten]; exact hstaged), hwritten, State.setContext_setContext, hg]
        rfl
      · rw [State.rekeyDecision_commit call (by rw [hwritten]; exact hstaged), hwritten, State.setContext_setContext, hg]
        rfl
      · rw [State.rekeyDecision_skip call (by rw [hwritten]; exact hnone) (by rw [hwritten]; exact hsome)
          (by rw [hwritten]; exact htaken), State.txSkip, hwritten, State.setContext_setContext]
  · rw [exec_txFrameAdvance hpulsed, State.takeTx_idle hdue]
  · rw [exec_txFrameAdvance hpulsed, State.takeTx_free hdue hfree]
    rfl
  · intro call p u hcall hposition hdue howed hnodup hup
    rw [exec_suppliedUp hpulsed] at hup
    obtain rfl := Host.Outcome.next.inj hup
    have hpulsed' : (s.supplyUp p.val).pulsed := by
      have hkept : (s.supplyUp p.val).pulse = s.pulse := by
        rw [State.supplyUp, if_pos howed]
        exact ((TableEffect.refl _).upstream p.val 255).pulse
      rw [State.pulsed, hkept]
      exact hpulsed
    rw [← hposition] at howed hpulsed' ⊢
    rw [exec_txFrameAdvance hpulsed, exec_txFrameAdvance hpulsed', State.takeTx_supplyUp hdue hcall howed hnodup]

end Sys2Proof.Machine
end

section
/-! The receive side of a scrambled call (R142 to R150): what an arrival hands to it, the window that it leaves, and what
the recognition of a burst writes and reports. -/

namespace Sys2Proof.Machine

variable {s t v x : State} {p j : Nat} {call : Call} {c : Context} {r : State}

/-! ### A context written, with reports -/

/-- The state `x` is `v` with one context written and the outbound management cells of `r`. -/
structure State.WroteContext (v : State) (j : Nat) (c : Context) (r x : State) : Prop where
  eq : x = (v.setContext j c).withReports r
  settings : r.settings = v.settings

theorem State.wroteContext (v : State) (j : Nat) (c : Context) : v.WroteContext j c v (v.setContext j c) := ⟨rfl, rfl⟩

theorem State.WroteContext.context (h : v.WroteContext j c r x) : x.context j = c := by
  rw [h.eq]
  exact v.context_setContext_self j c

theorem State.WroteContext.settings_eq (h : v.WroteContext j c r x) : x.settings = v.settings := by
  rw [h.eq]; rfl

theorem State.WroteContext.sameReports (h : v.WroteContext j c r x) : SameReports x r := by
  rw [h.eq]
  exact ⟨rfl, rfl, rfl⟩

theorem State.WroteContext.setContext (h : v.WroteContext j c r x) (c' : Context) :
    v.WroteContext j c' r (x.setContext j c') := by
  refine ⟨?_, h.settings⟩
  rw [h.eq, ← v.setContext_setContext j c c']
  rfl

theorem State.WroteContext.setPosition (h : v.WroteContext j c r x) (p : Nat) (pos : Position) :
    (v.setPosition p pos).WroteContext j c r (x.setPosition p pos) := by
  refine ⟨?_, h.settings⟩
  rw [h.eq]
  rfl

theorem State.settings_report (s : State) (m : Report) : (s.report m).settings = s.settings := by rw [State.report_frame]

theorem State.WroteContext.report (h : v.WroteContext j c r x) (m : Report) :
    v.WroteContext j c (r.report m) (x.report m) := by
  refine ⟨?_, (r.settings_report m).trans h.settings⟩
  obtain ⟨hqueue, hpause, hlost⟩ := h.sameReports.report (h.settings_eq.trans h.settings.symm) m
  rw [State.report_frame, hqueue, hpause, hlost, h.eq]
  rfl

theorem State.WroteContext.reportStagedTaken (h : v.WroteContext j c r x) (p : Nat) (g : Generation) (otherTaken : Bool) :
    v.WroteContext j c (r.reportStagedTaken j p g otherTaken) (x.reportStagedTaken j p g otherTaken) := by
  cases otherTaken with
  | false => exact h
  | true => exact h.report _

/-! ### The generation check (R149, R150) -/

/-- The burst is of the generation that the receive side has. -/
theorem State.WroteContext.generationCheck_same (h : v.WroteContext j c r x) (call : Call) (before : SyncState)
    {g : Generation} (hsame : g = c.rxGeneration) :
    v.WroteContext j { c with sync := .aligned } r (x.generationCheck j call before g) := by
  unfold State.generationCheck
  dsimp only
  rw [h.context, if_pos hsame]
  exact h.setContext _

theorem Generation.next_ne (g : Generation) : g + 1 ≠ g := by
  unfold Generation at g
  bv_omega

/-- The burst is of the next generation, and the receive side takes the staged key (R150). -/
theorem State.WroteContext.generationCheck_commit (h : v.WroteContext j c r x) (call : Call) (before : SyncState)
    {g : Generation} {key : Key} {txTaken : Bool} (hnext : g = c.rxGeneration + 1)
    (hstaged : c.staged = some ⟨key, txTaken, false⟩) :
    v.WroteContext j
      { c with
        sync := .aligned, rxGeneration := g, call := some { call with rxKey := key }
        staged := if txTaken then none else some ⟨key, false, true⟩ }
      ((r.report (.rxRekeyed j call.position g c.rxFrame)).reportStagedTaken j call.position g txTaken)
      (x.generationCheck j call before g) := by
  have htakeable : c.rxTakeable = some ⟨key, txTaken, false⟩ := Context.rxTakeable_eq_some.2 ⟨hstaged, rfl⟩
  have hother : g ≠ c.rxGeneration := hnext ▸ Generation.next_ne _
  unfold State.generationCheck
  dsimp only
  rw [h.context, if_neg hother, if_pos hnext, htakeable]
  unfold State.rxCommit
  dsimp only
  rw [h.context]
  cases txTaken with
  | false => exact ((h.setContext _).report _).reportStagedTaken _ _ _
  | true => exact ((h.setContext _).report _).reportStagedTaken _ _ _

theorem State.WroteContext.enterKeyWait (h : v.WroteContext j c r x) (call : Call) (before : SyncState)
    (cause : KeyMissCause) (g : Generation) :
    v.WroteContext j { c with sync := .keyWait }
      (if before = .keyWait then r else r.report (.keyMiss j call.position cause g c.rxGeneration))
      (x.enterKeyWait j call before cause g) := by
  unfold State.enterKeyWait
  dsimp only
  rw [h.context]
  split
  · exact h.setContext _
  · exact (h.setContext _).report _

/-- The burst is of a generation for which the receive side has no key. -/
theorem State.WroteContext.generationCheck_miss (h : v.WroteContext j c r x) (call : Call) (before : SyncState)
    {g : Generation} {cause : KeyMissCause} (hother : g ≠ c.rxGeneration)
    (hnoKey : g = c.rxGeneration + 1 → cause = .noKey)
    (hskipped : g ≠ c.rxGeneration + 1 → cause = .skipped)
    (htaken : g = c.rxGeneration + 1 → ∀ k, c.staged = some k → k.rxTaken = true) :
    v.WroteContext j { c with sync := .keyWait }
      (if before = .keyWait then r else r.report (.keyMiss j call.position cause g c.rxGeneration))
      (x.generationCheck j call before g) := by
  have hwait := h.enterKeyWait call before cause g
  unfold State.generationCheck
  dsimp only
  rw [h.context, if_neg hother]
  by_cases hnext : g = c.rxGeneration + 1
  · rw [hnoKey hnext] at hwait ⊢
    rw [if_pos hnext]
    cases htakeable : c.rxTakeable with
    | some k =>
      obtain ⟨hstaged, hclear⟩ := Context.rxTakeable_eq_some.1 htakeable
      exact absurd (hclear.symm.trans (htaken hnext k hstaged)) nofun
    | none => exact hwait
  · rw [hskipped hnext] at hwait ⊢
    rw [if_neg hnext]
    exact hwait

/-- Whatever the burst's generation, the check writes the one context. -/
theorem State.WroteContext.generationCheck (h : v.WroteContext j c r x) (call : Call) (before : SyncState) (g : Generation) :
    ∃ c' r', v.WroteContext j c' r' (x.generationCheck j call before g) := by
  unfold State.generationCheck State.rxCommit
  dsimp only
  split
  · exact ⟨_, _, h.setContext _⟩
  · split
    · split
      · exact ⟨_, _, ((h.setContext _).report _).reportStagedTaken _ _ _⟩
      · exact ⟨_, _, h.enterKeyWait call before _ g⟩
    · exact ⟨_, _, h.enterKeyWait call before _ g⟩

/-! ### Recognition (R146, R147) -/

/-- The context as a recognition leaves it before the generation check, with its slips (R146, R147). -/
def Context.realigned (c : Context) (b : FoundBurst) (slips : Nat) : Context := { c.recognised b with slips := slips }

/-- What a recognition reports before the generation check: SYNC ALIGNED from HUNT, a SLIP in ALIGNED away from the
expected place (R146, R147). -/
def State.reportBurst (s : State) (j : Nat) (call : Call) (c : Context) (b : FoundBurst) (confirmed : Bool) : State :=
  match c.sync with
  | .hunt => s.report (.syncAligned j call.position (b.n0 + 7) b.generation)
  | .freewheel | .keyWait => s
  | .aligned => if confirmed then s else s.report (.slip j c.rxFrame b.n0 (min 255 (c.slips + 1)))

/-- The slips after a recognition (R147). -/
def Context.slipsAfter (c : Context) (confirmed : Bool) : Nat :=
  if c.sync = .aligned ∧ confirmed = false then min 255 (c.slips + 1) else c.slips

theorem confirms_of_aligned {span : Nat} {b : FoundBurst} {confirmed : Bool} (haligned : c.sync = .aligned)
    (hconfirmed : confirmed = true ↔ c.rxFrame.toNat % span = 7 ∧ b.n0 = c.rxFrame - 7) :
    confirms span c b = confirmed := by
  rw [Bool.eq_iff_iff, hconfirmed, confirms, expectedPlace, Bool.and_eq_true, Bool.and_eq_true, decide_eq_true_iff,
    decide_eq_true_iff, decide_eq_true_iff, haligned]
  exact and_congr_left fun _ => and_iff_right nofun

/-- A recognised burst: the context realigned and reported, and then the generation check. -/
theorem State.WroteContext.recognise (h : v.WroteContext j c r x) (call : Call) (b : FoundBurst) {confirmed : Bool}
    (hconfirmed : confirmed = true ↔ c.rxFrame.toNat % v.settings.syncSpan = 7 ∧ b.n0 = c.rxFrame - 7) :
    ∃ y, v.WroteContext j (c.realigned b (c.slipsAfter confirmed)) (r.reportBurst j call c b confirmed) y ∧
      x.recognise j call b = y.generationCheck j call c.sync b.generation := by
  unfold State.recognise State.reportBurst Context.slipsAfter
  dsimp only
  rw [h.context]
  cases hsync : c.sync with
  | hunt => exact ⟨_, (h.setContext _).report _, rfl⟩
  | freewheel | keyWait => exact ⟨_, h.setContext _, rfl⟩
  | aligned =>
    dsimp only
    rw [h.settings_eq, confirms_of_aligned hsync hconfirmed]
    cases confirmed with
    | true => exact ⟨_, h.setContext _, rfl⟩
    | false => exact ⟨_, (h.setContext _).report _, rfl⟩

/-! ### The arrival (R142) -/

/-- The context after the numbering and the append of an arrival (R142 steps 3 and 4). -/
theorem Context.appended_eq (c : Context) (code : Byte) :
    { c.numbered with window := windowAfter c.numbered.window code } = c.appended code := by
  obtain ⟨_, _, _, _, _, _, _, sync, _, _, _, _⟩ := c
  cases sync with
  | hunt | aligned | freewheel | keyWait => rfl

/-- An arrival whose window holds a valid burst. -/
theorem State.decideArrival_burst {b : FoundBurst} (call : Call)
    (hburst : findBurst s.settings.syncSpan (s.context j).window = some b) :
    s.decideArrival j call = s.recognise j call b := by
  simp only [State.decideArrival, hburst]

theorem State.receive_eq (v : State) (j : Nat) (call : Call) (code : Byte) :
    v.receive j call code = (v.setContext j ((v.context j).appended code)).decideArrival j call := by
  rw [← Context.appended_eq]
  rfl

/-- The state differs from `s` at most in the record of one position and in the events still to come. -/
structure State.Arrives (s : State) (p : Nat) (v : State) : Prop where
  positions : ∀ q, q ≠ p → v.position q = s.position q
  frame : ∃ records events, v = { s with positions := records, boundary := events }

theorem State.Arrives.setPosition (h : s.Arrives p v) (pos : Position) : s.Arrives p (v.setPosition p pos) := by
  obtain ⟨hpositions, _, _, rfl⟩ := h
  exact ⟨fun q hq => (State.position_setPosition_other _ pos hq).trans (hpositions q hq), _, _, rfl⟩

theorem State.Arrives.context_eq (h : s.Arrives p v) (j : Nat) : v.context j = s.context j := by
  obtain ⟨-, _, _, rfl⟩ := h
  rfl

theorem State.Arrives.settings_eq (h : s.Arrives p v) : v.settings = s.settings := by
  obtain ⟨-, _, _, rfl⟩ := h
  rfl

theorem State.Arrives.wroteContext (h : s.Arrives p v) (j : Nat) (c : Context) :
    v.WroteContext j c s (v.setContext j c) := by
  obtain ⟨-, _, _, rfl⟩ := h
  exact ⟨rfl, rfl⟩

/-- The one context written after an arrival is all that `ReceiveFrame` allows. -/
theorem State.Arrives.receiveFrame (h : s.Arrives p v) (hx : v.WroteContext j c r x) : ReceiveFrame s x p j := by
  obtain ⟨hpositions, _, _, rfl⟩ := h
  rw [hx.eq]
  exact ⟨hpositions, fun k hk => State.context_setContext_other _ c hk, rfl⟩

theorem State.effective_inCall (h : s.inCall p j call) : ∃ shape, s.effective p = .scrambled shape j call := by
  obtain ⟨howner, hloop, hcontext, hcall⟩ := h
  obtain ⟨e, howner⟩ := Option.ne_none_iff_exists'.1 howner
  have hat : s.callAt p = some (j, call) := by simp [State.callAt, hcontext, hcall]
  have htreated (plain : Effective) (shape : Shape) : s.unloopedTreatment p plain shape = .scrambled shape j call := by
    simp [State.unloopedTreatment, State.ownedTreatment, howner, hat]
  unfold State.effective
  cases hrequested : (s.position p).requested with
  | lineLoop | switchLoop => rw [hrequested] at hloop; nomatch hloop
  | clear | mute | tone => exact ⟨_, htreated _ _⟩

/-- In a call, a downstream arrival writes the position and hands its input to the receive side (R46, R142). -/
theorem State.downstream_inCall (h : s.inCall p j call) (code looped : Byte) :
    ∃ pos, s.downstream p code looped = (s.setPosition p pos).receive j call (s.receiveInput j code looped) := by
  obtain ⟨shape, heffective⟩ := State.effective_inCall h
  unfold State.downstream
  rw [heffective]
  dsimp only
  unfold State.scrambledDown State.countDownClamp
  dsimp only
  rw [State.setPosition_setPosition]
  exact ⟨_, rfl⟩

/-- Driving a slot leaves the call of the position as it is (R34, R38). -/
theorem State.inCall.driveBoth (h : s.inCall p j call) : (s.driveBoth p).inCall p j call := by
  have hkept := (Position.Kept.driveSwitch (s.position p)).trans (.driveLine _)
  obtain ⟨howner, hloop, hcontext, hcall⟩ := h
  unfold State.inCall State.driveBoth
  rw [State.position_setPosition_self, hkept.owner, hkept.requested, hkept.context]
  exact ⟨howner, hloop, hcontext, hcall⟩

/-- A carried arrival that the boundary owes nothing before: its result, and the position marked (R34). -/
theorem State.downstreamCarried_ready {code : Byte} (h : s.downArrives p (.carried code)) :
    ∃ pos, s.downstreamCarried p code =
      ((s.driveBoth p).downstream p code ((s.position p).atArrival (.carried code)).switchSending).setPosition p pos := by
  obtain ⟨hup, hdown, hplayout, hreport⟩ := h
  have hboth : s.supplyBoth p = s := by rw [State.supplyBoth, State.supplyUp_idle hup, State.supplyDown_idle hdown]
  have hsending : ((s.driveBoth p).position p).switchSending =
      ((s.position p).atArrival (.carried code)).switchSending := by
    rw [State.driveBoth, State.position_setPosition_self]
    rfl
  unfold State.downstreamCarried
  dsimp only
  rw [hboth, State.beforeDownstream_idle hplayout hreport, hsending]
  exact ⟨_, rfl⟩

/-- The receive side handles an arrival of a position in a call in a state that differs from `s` at most at the position;
what it then writes and reports is what the command leaves (R34, R142). -/
theorem exec_downstreamArrival_inCall {p : Fin 480} {a : Arrival} (hpulsed : s.pulsed) (harrives : s.downArrives p.val a)
    (hcall : s.inCall p.val j call) :
    ∃ v v' t, s.Arrives p.val v ∧ s.Arrives p.val v' ∧ exec (.downstreamArrival p a) s = .next t ∧
      ∀ c r, v.WroteContext j c r (v.receive j call (s.inputCode p.val j a)) → v'.WroteContext j c r t := by
  cases a with
  | supplied =>
    have hexec := State.whilePulsed_of_pulsed hpulsed fun v => v.supplyDown p.val
    let struck := s.withBoundary { s.boundary with suppliedDown := s.boundary.suppliedDown.erase p.val }
    have hstruck : s.Arrives p.val struck := ⟨fun _ _ => rfl, _, _, rfl⟩
    obtain ⟨pos, hdown⟩ := State.downstream_inCall (s := struck) hcall 255 255
    have hinput : struck.receiveInput j 255 255 = 255 := ite_self _
    rw [hinput] at hdown
    exact ⟨_, _, _, hstruck.setPosition pos, hstruck.setPosition pos,
      hexec.trans (congrArg Host.Outcome.next ((if_pos harrives).trans hdown)), fun c r hx => hx⟩
  | carried code =>
    have hexec := State.whilePulsed_of_pulsed hpulsed fun v => v.downstreamCarried p.val code
    have hdriven : s.Arrives p.val (s.driveBoth p.val) := State.Arrives.setPosition ⟨fun _ _ => rfl, _, _, rfl⟩ _
    obtain ⟨pos, hdown⟩ := State.downstream_inCall hcall.driveBoth code
      ((s.position p.val).atArrival (.carried code)).switchSending
    obtain ⟨marked, hready⟩ := State.downstreamCarried_ready harrives
    rw [hdown] at hready
    exact ⟨_, _, _, hdriven.setPosition pos, (hdriven.setPosition pos).setPosition marked,
      hexec.trans (congrArg Host.Outcome.next hready), fun c r hx => hx.setPosition p.val marked⟩

/-- Settles O42: the receive side recognises the burst, and the clauses are the cases of its generation check. -/
theorem receiveWithBurst : Obligations.ReceiveWithBurst := by
  intro p a s u j call c r b slips confirmed hpulsed harrives hcall hc hburst hconfirmed hslips hhunt hslip hquiet hr
  obtain ⟨v, v', t, hv, hv', hexec, hleaves⟩ := exec_downstreamArrival_inCall hpulsed harrives hcall
  have hread : (v.context j).appended (s.inputCode p.val j a) = c := by rw [hv.context_eq, hc]
  have hwritten := hv.wroteContext j c
  have hreceive : v.receive j call (s.inputCode p.val j a) = (v.setContext j c).recognise j call b := by
    rw [State.receive_eq, hread]
    refine State.decideArrival_burst call ?_
    rw [hwritten.settings_eq, hv.settings_eq, hwritten.context, hburst]
  have hreports : u = s.reportBurst j call c b confirmed := by
    unfold State.reportBurst
    cases hsync : c.sync with
    | hunt => exact hhunt hsync
    | freewheel => exact hquiet (.inl hsync)
    | keyWait => exact hquiet (.inr (.inl hsync))
    | aligned =>
      cases hplace : confirmed with
      | true => exact hquiet (.inr (.inr ⟨hsync, hplace⟩))
      | false => rw [hslip hsync hplace, hslips, if_pos ⟨hsync, hplace⟩]; rfl
  have hrealigned : r = c.realigned b (c.slipsAfter confirmed) := by rw [hr, hslips]; rfl
  obtain ⟨y, hy, hcheck⟩ := hwritten.recognise call b (by rw [hv.settings_eq]; exact hconfirmed)
  rw [hreceive, hcheck] at hleaves
  rw [← hreports, ← hrealigned] at hy
  subst hr
  have hresult {c' : Context} {w : State} (hx : v.WroteContext j c' w (y.generationCheck j call c.sync b.generation)) :
      t.context j = c' ∧ SameReports t w := ⟨(hleaves _ _ hx).context, (hleaves _ _ hx).sameReports⟩
  obtain ⟨_, _, hany⟩ := hy.generationCheck call c.sync b.generation
  exact ⟨t, hexec, hv'.receiveFrame (hleaves _ _ hany), fun hsame => hresult (hy.generationCheck_same call c.sync hsame),
    fun key hnext => ⟨fun hstaged => hresult (hy.generationCheck_commit call c.sync hnext hstaged),
      fun hstaged => hresult (hy.generationCheck_commit call c.sync hnext hstaged)⟩,
    fun cause hother hnoKey hskipped htaken =>
      hresult (hy.generationCheck_miss call c.sync hother hnoKey hskipped htaken)⟩

end Sys2Proof.Machine
end

section
/-! The sync burst (R136, R137, R145): the bytes that carry a frame number and a generation, the window that holds them,
and the frames that send them. -/

namespace Sys2Proof.Machine

/-! ### The bytes of a burst (R137) -/

theorem highByte_toNat (n : FrameNumber) : n.toNat / 65536 % 256 = n.toNat / 65536 := Nat.mod_eq_of_lt (by omega)

theorem burstCheck_toNat (n0 : FrameNumber) (g : Generation) :
    (burstCheck n0 g).toNat =
      (27 + 228 + n0.toNat / 65536 + n0.toNat / 256 % 256 + n0.toNat % 256 + g.toNat + 165) % 256 := by
  simp only [burstCheck, BitVec.toNat_add, BitVec.toNat_setWidth, BitVec.toNat_ofNat, BitVec.reduceToNat]
  omega

theorem burstBytes_toNat (n0 : FrameNumber) (g : Generation) :
    (burstBytes n0 g).map BitVec.toNat =
      [27, 228, n0.toNat / 65536, n0.toNat / 256 % 256, n0.toNat % 256, g.toNat, 165,
        (27 + 228 + n0.toNat / 65536 + n0.toNat / 256 % 256 + n0.toNat % 256 + g.toNat + 165) % 256] := by
  have hgeneration : g.toNat < 256 := g.isLt.trans (by decide)
  simp [burstBytes, burstCheck_toNat, highByte_toNat, hgeneration]

/-- Three bytes hold a frame number exactly when they are its bytes, the most significant first. -/
theorem frameNumber_of_bytes_iff {b3 b4 b5 : Byte} {n0 : FrameNumber} :
    b3.toNat * 65536 + b4.toNat * 256 + b5.toNat = n0.toNat ↔
      b3 = BitVec.ofNat 8 (n0.toNat / 65536) ∧ b4 = BitVec.ofNat 8 (n0.toNat / 256) ∧ b5 = BitVec.ofNat 8 n0.toNat := by
  simp only [← BitVec.toNat_inj, BitVec.toNat_ofNat]
  omega

/-- A byte below four holds a generation exactly when it is the byte of that generation. -/
theorem generation_of_byte_iff {b6 : Byte} {g : Generation} :
    b6.toNat < 4 ∧ b6.setWidth 2 = g ↔ b6 = g.setWidth 8 := by
  simp only [← BitVec.toNat_inj, BitVec.toNat_setWidth]
  omega

/-! ### The window (R145) -/

/-- Eight codes are the bytes of a burst exactly when the markers, the number, the generation and the sum are right. -/
theorem map_code_eq_burstBytes_iff {b1 b2 b3 b4 b5 b6 b7 b8 : WindowCode} {n0 : FrameNumber} {g : Generation} :
    [b1, b2, b3, b4, b5, b6, b7, b8].map WindowCode.code = burstBytes n0 g ↔
      (b1.code = 27 ∧ b2.code = 228 ∧ b7.code = 165 ∧
        b8.code = b1.code + b2.code + b3.code + b4.code + b5.code + b6.code + b7.code) ∧
      b3.code.toNat * 65536 + b4.code.toNat * 256 + b5.code.toNat = n0.toNat ∧
      b6.code.toNat < 4 ∧ b6.code.setWidth 2 = g := by
  rw [frameNumber_of_bytes_iff, generation_of_byte_iff]
  simp only [burstBytes, burstCheck, List.map_cons, List.map_nil, List.cons.injEq, and_true]
  constructor
  · rintro ⟨h1, h2, h3, h4, h5, h6, h7, h8⟩
    exact ⟨⟨h1, h2, h7, by rw [h1, h2, h3, h4, h5, h6, h7, h8]⟩, ⟨h3, h4, h5⟩, h6⟩
  · rintro ⟨⟨h1, h2, h7, h8⟩, ⟨h3, h4, h5⟩, h6⟩
    exact ⟨h1, h2, h3, h4, h5, h6, h7, by rw [h8, h1, h2, h3, h4, h5, h6, h7]⟩

theorem findBurst_eight_eq_some_iff {span : Nat} {b1 b2 b3 b4 b5 b6 b7 b8 : WindowCode} {b : FoundBurst} :
    findBurst span [b1, b2, b3, b4, b5, b6, b7, b8] = some b ↔
      [b1, b2, b3, b4, b5, b6, b7, b8].map WindowCode.code = burstBytes b.n0 b.generation ∧
        (∀ w ∈ [b1, b2, b3, b4, b5, b6, b7, b8], w.isBurst = false) ∧ b.n0.toNat % span = 0 := by
  obtain ⟨n0, g⟩ := b
  have hnumber : BitVec.ofNat 24 (b3.code.toNat * 65536 + b4.code.toNat * 256 + b5.code.toNat) = n0 ↔
      b3.code.toNat * 65536 + b4.code.toNat * 256 + b5.code.toNat = n0.toNat := by bv_omega
  rw [map_code_eq_burstBytes_iff]
  simp only [findBurst, Option.ite_none_right_eq_some, Option.some.injEq, FoundBurst.mk.injEq, hnumber, List.all_eq_true,
    Bool.not_eq_true']
  constructor
  · rintro ⟨⟨h1, h2, h7, h6, h8, hspan, hmarks⟩, hn0, hg⟩
    exact ⟨⟨⟨h1, h2, h7, h8⟩, hn0, h6, hg⟩, hmarks, hn0 ▸ hspan⟩
  · rintro ⟨⟨⟨h1, h2, h7, h8⟩, hn0, h6, hg⟩, hmarks, hspan⟩
    exact ⟨⟨h1, h2, h7, h6, h8, hn0 ▸ hspan, hmarks⟩, hn0, hg⟩

theorem exists_eight_of_findBurst {span : Nat} {window : List WindowCode} {b : FoundBurst}
    (h : findBurst span window = some b) :
    ∃ b1 b2 b3 b4 b5 b6 b7 b8, window = [b1, b2, b3, b4, b5, b6, b7, b8] := by
  unfold findBurst at h
  split at h
  · exact ⟨_, _, _, _, _, _, _, _, rfl⟩
  · cases h

theorem exists_eight_of_map_code {window : List WindowCode} {n0 : FrameNumber} {g : Generation}
    (h : window.map WindowCode.code = burstBytes n0 g) :
    ∃ b1 b2 b3 b4 b5 b6 b7 b8, window = [b1, b2, b3, b4, b5, b6, b7, b8] := by
  simp only [burstBytes, List.map_eq_cons_iff, List.map_eq_nil_iff] at h
  obtain ⟨b1, _, rfl, -, b2, _, rfl, -, b3, _, rfl, -, b4, _, rfl, -, b5, _, rfl, -, b6, _, rfl, -, b7, _, rfl, -, b8, _,
    rfl, -, rfl⟩ := h
  exact ⟨b1, b2, b3, b4, b5, b6, b7, b8, rfl⟩

/-- A window holds a valid burst exactly when its codes are the bytes of one at a multiple of the span, unmarked. -/
theorem findBurst_eq_some_iff {span : Nat} {window : List WindowCode} {b : FoundBurst} :
    findBurst span window = some b ↔
      window.map WindowCode.code = burstBytes b.n0 b.generation ∧ (∀ w ∈ window, w.isBurst = false) ∧
        b.n0.toNat % span = 0 := by
  constructor
  · intro h
    obtain ⟨b1, b2, b3, b4, b5, b6, b7, b8, rfl⟩ := exists_eight_of_findBurst h
    exact findBurst_eight_eq_some_iff.1 h
  · intro h
    obtain ⟨b1, b2, b3, b4, b5, b6, b7, b8, rfl⟩ := exists_eight_of_map_code h.1
    exact findBurst_eight_eq_some_iff.2 h

/-! ### The frames that send a burst (R136) -/

theorem le_and_dvd_of_isSyncSpan {span : Nat} (h : isSyncSpan span = true) : 8 ≤ span ∧ span ∣ 2 ^ 24 := by
  have hspans : ∀ x ∈ ([256, 512, 1024, 2048, 4096, 8192] : List Nat), 8 ≤ x ∧ x ∣ 2 ^ 24 := by decide
  exact hspans span (of_decide_eq_true h)

/-- A frame less than eight beyond a multiple of the Sync Span has that offset, after the numbers wrap too. -/
theorem spanOffset_add {span k : Nat} {n0 : FrameNumber} (hspan : isSyncSpan span = true) (hk : k < 8)
    (hn0 : n0.toNat % span = 0) : spanOffset span (n0 + BitVec.ofNat 24 k) = k := by
  obtain ⟨hle, hdvd⟩ := le_and_dvd_of_isSyncSpan hspan
  rw [spanOffset, BitVec.toNat_add, BitVec.toNat_ofNat, Nat.add_mod_mod, Nat.mod_mod_of_dvd _ hdvd, Nat.add_mod, hn0,
    Nat.zero_add, Nat.mod_mod, Nat.mod_eq_of_lt (by omega)]

/-- In the first eight frames of a Sync Span the transmit side sends the burst that began there (R136). -/
theorem getElem?_burstBytes_of_spanOffset {span k : Nat} {c : Context} (hoffset : spanOffset span c.txFrame = k)
    (hk : k < 8) (call : Call) (clear : Byte) :
    (burstBytes (c.txFrame - BitVec.ofNat 24 k) c.txGeneration)[k]? = some (transmitCode span c call clear) := by
  subst hoffset
  rw [transmitCode, if_pos hk, List.getD_eq_getElem _ _ hk, List.getElem?_eq_getElem hk]

/-! ### The obligation -/

/-- Settles O14: the bytes of a burst and the number and generation they hold determine each other, and a frame less than
eight beyond a multiple of the Sync Span finds that multiple again. -/
theorem burstFoundExactlyWhenSent : Obligations.BurstFoundExactlyWhenSent := by
  refine ⟨?_, fun span hspan => ⟨fun window b => findBurst_eq_some_iff, ?_⟩⟩
  · rintro n0 g _ _ _ rfl rfl rfl
    exact burstBytes_toNat n0 g
  · intro c call clear n0 k hk hn0 hframe
    have hoffset : spanOffset span c.txFrame = k := hframe ▸ spanOffset_add hspan hk hn0
    rw [← getElem?_burstBytes_of_spanOffset hoffset hk, hframe, BitVec.add_sub_cancel]

end Sys2Proof.Machine
end

section
/-! The receive side of a scrambled call when its window holds no valid burst: the arrivals that count as a miss, and what
a miss writes and reports (R142, R143, R148). -/

namespace Sys2Proof.Machine

variable {s v x : State} {j : Nat} {call : Call} {c : Context} {r : State}

/-! ### The decision without a burst (R142 step 6, R143) -/

theorem expectedPlace_iff {span : Nat} :
    expectedPlace span c = true ↔ c.sync ≠ .hunt ∧ c.rxFrame.toNat % span = 7 := by
  rw [expectedPlace, Bool.and_eq_true, decide_eq_true_iff, decide_eq_true_iff, spanOffset]

/-- An arrival whose window holds no valid burst counts a miss at an expected place and decides nothing elsewhere. -/
theorem State.WroteContext.decideArrival_noBurst (h : v.WroteContext j c r x) (call : Call)
    (hburst : findBurst v.settings.syncSpan c.window = none) :
    x.decideArrival j call = if expectedPlace v.settings.syncSpan c then x.countMiss j call else x := by
  unfold State.decideArrival
  dsimp only
  rw [h.context, h.settings_eq, hburst]

/-! ### A miss (R148) -/

/-- A miss below the Miss Limit is counted, and leaves ALIGNED for FREEWHEEL. -/
theorem State.WroteContext.countMiss_below (h : v.WroteContext j c r x) (call : Call)
    (hbelow : c.misses + 1 < v.settings.missLimit) :
    v.WroteContext j { c with misses := c.misses + 1, sync := if c.sync = .aligned then .freewheel else c.sync } r
      (x.countMiss j call) := by
  unfold State.countMiss
  dsimp only
  rw [h.context, h.settings_eq, if_pos hbelow]
  exact h.setContext _

/-- A miss at the Miss Limit loses the alignment. -/
theorem State.WroteContext.countMiss_atLimit (h : v.WroteContext j c r x) (call : Call)
    (hlimit : v.settings.missLimit ≤ c.misses + 1) :
    v.WroteContext j { c with misses := c.misses + 1, sync := .hunt } (r.report (.syncLost j call.position (c.misses + 1)))
      (x.countMiss j call) := by
  unfold State.countMiss
  dsimp only
  rw [h.context, h.settings_eq, if_neg (Nat.not_lt.2 hlimit)]
  exact (h.setContext _).report _

/-! ### The arrival and its decision -/

/-- The command writes the numbered and appended context and decides; what the decision writes and reports is what the
command leaves (R142). -/
theorem exec_downstreamArrival_decides {p : Fin 480} {a : Arrival} (hpulsed : s.pulsed) (harrives : s.downArrives p.val a)
    (hcall : s.inCall p.val j call) :
    ∃ (v x t : State), v.settings = s.settings ∧
      v.WroteContext j ((s.context j).appended (s.inputCode p.val j a)) s x ∧
      exec (.downstreamArrival p a) s = .next t ∧
      ∀ c r, v.WroteContext j c r (x.decideArrival j call) →
        ReceiveFrame s t p.val j ∧ t.context j = c ∧ SameReports t r := by
  obtain ⟨v, v', t, hv, hv', hexec, hleaves⟩ := exec_downstreamArrival_inCall hpulsed harrives hcall
  rw [State.receive_eq, hv.context_eq] at hleaves
  refine ⟨v, _, t, hv.settings_eq, hv.wroteContext j _, hexec, fun c r hdecided => ?_⟩
  have hleft := hleaves c r hdecided
  exact ⟨hv'.receiveFrame hleft, hleft.context, hleft.sameReports⟩

/-! ### The obligation -/

/-- Settles O41: without a burst the decision is a miss at an expected place, below the Miss Limit or at it, and nothing
elsewhere. -/
theorem receiveWithoutBurst : Obligations.ReceiveWithoutBurst := by
  intro p a s j call c hpulsed harrives hcall hc hburst
  obtain ⟨v, x, t, hsettings, hwritten, hexec, hleaves⟩ := exec_downstreamArrival_decides hpulsed harrives hcall
  rw [← hc] at hwritten
  rw [← hsettings] at hburst ⊢
  rw [hwritten.decideArrival_noBurst call hburst] at hleaves
  by_cases hplace : expectedPlace v.settings.syncSpan c = true
  · rw [if_pos hplace] at hleaves
    obtain ⟨hsync, hseven⟩ := expectedPlace_iff.1 hplace
    have helsewhere {P : Prop} (h : c.sync = .hunt ∨ c.rxFrame.toNat % v.settings.syncSpan ≠ 7) : P :=
      (h.elim hsync fun hother => hother hseven).elim
    rcases Nat.lt_or_ge (c.misses + 1) v.settings.missLimit with hbelow | hlimit
    · obtain ⟨hframe, hresult⟩ := hleaves _ _ (hwritten.countMiss_below call hbelow)
      exact ⟨t, hexec, hframe, helsewhere, fun _ _ _ => hresult, fun _ _ hlimit => absurd hbelow (Nat.not_lt.2 hlimit)⟩
    · obtain ⟨hframe, hresult⟩ := hleaves _ _ (hwritten.countMiss_atLimit call hlimit)
      exact ⟨t, hexec, hframe, helsewhere, fun _ _ hbelow => absurd hbelow (Nat.not_lt.2 hlimit), fun _ _ _ => hresult⟩
  · rw [if_neg hplace] at hleaves
    obtain ⟨hframe, hresult⟩ := hleaves _ _ hwritten
    have hexpected {P : Prop} (hsync : c.sync ≠ .hunt) (hseven : c.rxFrame.toNat % v.settings.syncSpan = 7) : P :=
      absurd (expectedPlace_iff.2 ⟨hsync, hseven⟩) hplace
    exact ⟨t, hexec, hframe, fun _ => hresult, hexpected, hexpected⟩

end Sys2Proof.Machine
end

section
/-! The Playout Unit (chapter 10): the checks and the effect of LOAD PATTERN, SET PLAYOUT and STOP PLAYOUT, and the
advance of a channel at a frame boundary. -/

namespace Sys2Proof.Machine

variable {s : State}

/-! ### The answer and the effect -/

/-- The answer joins the Report Queue alike before and after a change that leaves the outbound cells alone. -/
theorem State.accept_comm {f : State → State} (hcells : ∀ t, (f s).withReports t = f (s.withReports t))
    (hsame : SameReports (f s) s) (tag : Byte) (values : Accepted) :
    (f s).accept tag values = f (s.accept tag values) := by
  have hjoined : SameReports ((f s).accept tag values) (s.accept tag values) := hsame.joinCell 0 (.accepted tag values)
  calc (f s).accept tag values
      _ = (f s).withReports ((f s).accept tag values) := State.accept_eq_withReports ..
      _ = (f s).withReports (s.accept tag values) := State.withReports_congr _ hjoined
      _ = f (s.withReports (s.accept tag values)) := hcells _
      _ = f (s.accept tag values) := by rw [← State.accept_eq_withReports]

theorem State.accept_setChannel (s : State) (c : Nat) (v : Channel) (tag : Byte) (values : Accepted) :
    (s.setChannel c v).accept tag values = (s.accept tag values).setChannel c v :=
  State.accept_comm (f := fun t => t.setChannel c v) (fun _ => rfl) (SameReports.refl s) tag values

theorem State.accept_withPattern (s : State) (m : Memory) (tag : Byte) (values : Accepted) :
    ({ s with pattern := m } : State).accept tag values = { s.accept tag values with pattern := m } :=
  State.accept_comm (f := fun t => { t with pattern := m }) (fun _ => rfl) (SameReports.refl s) tag values

/-! ### LOAD PATTERN (R156) -/

theorem exec_loadPattern (h : s.inFrame) (tag : Byte) (a : Nat) (c0 c1 c2 c3 : Byte) :
    exec (.loadPattern tag a c0 c1 c2 c3) s = .next (s.loadPattern tag a c0 c1 c2 c3) :=
  State.managementCell_inFrame h fun v => v.loadPattern tag a c0 c1 c2 c3

/-- A LOAD PATTERN that stays within Pattern Memory changes it and queues the answer, and nothing else (R156). -/
theorem State.loadPattern_eq (s : State) (tag : Byte) {a : Nat} (c0 c1 c2 c3 : Byte) (ha : a ≤ 8188) :
    s.loadPattern tag a c0 c1 c2 c3 =
      { s.accept tag (.loadPattern a) with pattern := s.pattern.writeFour a c0 c1 c2 c3 } := by
  rw [State.loadPattern, if_neg (Nat.not_lt.2 ha), State.accept_withPattern]

/-- Four codes leave every address outside their stretch as it was (R156). -/
theorem Memory.read_writeFour_outside (m : Memory) {a b : Nat} (c0 c1 c2 c3 : Byte) (h : b < a ∨ a + 3 < b) :
    (m.writeFour a c0 c1 c2 c3).read b = m.read b := by
  rw [Memory.read_writeFour, if_neg (by omega), if_neg (by omega), if_neg (by omega), if_neg (by omega)]

/-! ### SET PLAYOUT (R158) -/

theorem modeOfCode_none {code : Nat} (h : 1 < code) : modeOfCode code = none := by
  unfold modeOfCode
  split
  case h_3 => rfl
  all_goals omega

theorem modeOfCode_code (mode : PlayoutMode) : modeOfCode mode.code = some mode := by
  cases mode <;> rfl

/-- A mode is the one its code names (R174). -/
theorem PlayoutMode.code_eq {code : Nat} {mode : PlayoutMode} (hle : code ≤ 1) (hadvance : code = 0 → mode = .advance)
    (hfixed : code = 1 → mode = .fixed) : mode.code = code := by
  obtain rfl | rfl : code = 0 ∨ code = 1 := by omega
  · rw [hadvance rfl]; rfl
  · rw [hfixed rfl]; rfl

theorem repeatsOf_eq {count : Nat} {left : Repeats} (hendless : count = 0 → left = .endless)
    (hcount : count ≠ 0 → left = .count count) : repeatsOf count = left := by
  unfold repeatsOf
  split
  · next h => exact (hendless h).symm
  · next h => exact (hcount h).symm

/-- The length as applied, by the side on which the length carried leaves its range (R158). -/
theorem appliedLength_eq {start length applied : Nat} (hstart : start ≤ 8191) (hzero : length = 0 → applied = 1)
    (hlong : 8192 - start < length → applied = 8192 - start)
    (hfits : 1 ≤ length → length ≤ 8192 - start → applied = length) : appliedLength start length = applied := by
  unfold appliedLength
  omega

theorem exec_setPlayout (h : s.inFrame) (tag : Byte) (c repeats code start length : Nat) :
    exec (.setPlayout tag c repeats code start length) s = .next (s.setPlayout tag c repeats code start length) :=
  State.managementCell_inFrame h fun v => v.setPlayout tag c repeats code start length

theorem State.setPlayout_badValue (s : State) (tag : Byte) {c code start : Nat} (repeats length : Nat) (hc : c ≤ 15)
    (h : 8191 < start ∨ 1 < code) : s.setPlayout tag c repeats code start length = s.refuse tag 15 .badValue := by
  rw [State.setPlayout, if_neg (Nat.not_lt.2 hc)]
  by_cases hstart : 8191 < start
  · rw [if_pos hstart]
  · rw [if_neg hstart, modeOfCode_none (h.resolve_left hstart)]

/-- A SET PLAYOUT that passes its checks starts the channel and queues the answer (R158). -/
theorem State.setPlayout_of_code (s : State) (tag : Byte) {c start : Nat} (repeats length : Nat) (mode : PlayoutMode)
    (hc : c ≤ 15) (hstart : start ≤ 8191) :
    s.setPlayout tag c repeats mode.code start length =
      (s.accept tag (.setPlayout c (appliedLength start length))).setChannel c
        (startedChannel start length repeats mode) := by
  rw [State.setPlayout, if_neg (Nat.not_lt.2 hc), if_neg (Nat.not_lt.2 hstart), modeOfCode_code,
    ← State.accept_setChannel]

/-! ### STOP PLAYOUT (R159) -/

theorem exec_stopPlayout (h : s.inFrame) (tag : Byte) (c : Nat) :
    exec (.stopPlayout tag c) s = .next (s.stopPlayout tag c) :=
  State.managementCell_inFrame h fun v => v.stopPlayout tag c

theorem Channel.stop_running {c : Channel} (h : c.status = .running) : c.stop = { c with status := .stopped } := by
  rw [Channel.stop, h]

theorem Channel.stop_idle {c : Channel} (h : c.status ≠ .running) : c.stop = c := by
  unfold Channel.stop
  split
  · next hrunning => exact absurd hrunning h
  · rfl
  · rfl

theorem State.channels_wf (h : s.wf = true) : Table.wf 16 {} s.channels = true := by
  simp only [State.wf, State.canonical, Bool.and_eq_true] at h
  obtain ⟨⟨⟨⟨⟨-, hchannels⟩, -⟩, -⟩, -⟩, -⟩ := h
  exact hchannels

/-- The record that an index already reads as, written to it, leaves a canonical table as it is. -/
theorem Table.set_get {α : Type} [DecidableEq α] {n : Nat} {d : α} {t : Table α} (h : Table.wf n d t = true) {i : Nat}
    (hi : i < n) : Table.set d t i (Table.get d t i) = t := by
  refine Table.ext_get (Table.set_wf h hi) h fun j => ?_
  rw [Table.get_set]
  split
  · next hj => rw [hj]
  · rfl

theorem State.setChannel_channel (h : s.wf = true) {c : Nat} (hc : c ≤ 15) : s.setChannel c (s.channel c) = s := by
  have hsame : Table.set {} s.channels c (s.channel c) = s.channels :=
    Table.set_get (State.channels_wf h) (Nat.lt_succ_of_le hc)
  rw [State.setChannel, hsame]

/-- A STOP PLAYOUT of a channel of the part answers with the status before (R159). -/
theorem State.stopPlayout_eq (s : State) (tag : Byte) {c : Nat} (hc : c ≤ 15) :
    s.stopPlayout tag c = (s.setChannel c (s.channel c).stop).accept tag (.stopPlayout c (s.channel c).status) := by
  rw [State.stopPlayout, if_neg (Nat.not_lt.2 hc)]

theorem State.stopPlayout_running (tag : Byte) {c : Nat} (hc : c ≤ 15) (hrunning : (s.channel c).status = .running) :
    s.stopPlayout tag c =
      (s.accept tag (.stopPlayout c .running)).setChannel c { s.channel c with status := .stopped } := by
  rw [s.stopPlayout_eq tag hc, Channel.stop_running hrunning, hrunning, State.accept_setChannel]

theorem State.stopPlayout_idle (hwf : s.wf = true) (tag : Byte) {c : Nat} (hc : c ≤ 15)
    (hidle : (s.channel c).status ≠ .running) :
    s.stopPlayout tag c = s.accept tag (.stopPlayout c (s.channel c).status) := by
  rw [s.stopPlayout_eq tag hc, Channel.stop_idle hidle, State.setChannel_channel hwf hc]

/-! ### The management cells of playout -/

/-- Settles O44: each clause is the case of its checks in the cell's own equation. -/
theorem playoutCellsAreApplied : Obligations.PlayoutCellsAreApplied := by
  refine ⟨fun tag a c0 c1 c2 c3 s hframe => ?_, fun tag c repeats code start length s hframe => ?_,
    fun tag c s hwf hframe => ?_⟩
  · rw [exec_loadPattern hframe]
    refine ⟨fun ha => congrArg _ (if_pos ha), fun ha => ⟨_, rfl, ?_⟩⟩
    rw [s.loadPattern_eq tag c0 c1 c2 c3 ha]
    refine ⟨rfl, ?_, ?_, ?_, ?_, fun b hb => Memory.read_writeFour_outside _ _ _ _ _ hb,
      fun hpattern => Memory.writeFour_wf hpattern ha⟩
    all_goals simp [Memory.read_writeFour]
  · rw [exec_setPlayout hframe]
    refine ⟨fun hc => congrArg _ (if_pos hc), fun hc hbad => congrArg _ (s.setPlayout_badValue tag _ _ hc hbad),
      fun mode applied left hc hstart hcode hadvance hfixed hzero hlong hfits hendless hcount => congrArg _ ?_⟩
    rw [← PlayoutMode.code_eq hcode hadvance hfixed, s.setPlayout_of_code tag repeats length mode hc hstart,
      startedChannel, appliedLength_eq hstart hzero hlong hfits, repeatsOf_eq hendless hcount]
    rfl
  · rw [exec_stopPlayout hframe]
    exact ⟨fun hc => congrArg _ (if_pos hc), fun hc hrunning => congrArg _ (State.stopPlayout_running tag hc hrunning),
      fun hc hidle => congrArg _ (State.stopPlayout_idle hwf tag hc hidle)⟩

/-! ### Advancing (R160) -/

theorem Channel.advanced_within {c : Channel} (h : c.position < c.start + c.length - 1) :
    c.advanced = { c with position := c.position + 1 } := if_pos h

theorem Channel.advanced_atEnd {c : Channel} (h : c.start + c.length - 1 ≤ c.position) : c.advanced = c.wrap :=
  if_neg (Nat.not_lt.2 h)

theorem Channel.wrap_endless {c : Channel} (h : c.repeats = .endless) : c.wrap = { c with position := c.start } := by
  rw [Channel.wrap, h]

theorem Channel.wrap_again {c : Channel} {n : Nat} (h : c.repeats = .count (n + 2)) :
    c.wrap = { c with position := c.start, repeats := .count (n + 1) } := by
  rw [Channel.wrap, h]
  simp

theorem Channel.wrap_last {c : Channel} (h : c.repeats = .count 1) :
    c.wrap = { c with position := c.start, repeats := .count 0, status := .countDone } := by
  rw [Channel.wrap, h]
  rfl

theorem State.playoutStep_idle {c : Nat} (h : (s.channel c).status ≠ .running) : s.playoutStep c = s := by
  cases hstatus : (s.channel c).status with
  | running => exact absurd hstatus h
  | stopped | countDone => simp only [State.playoutStep, hstatus]

/-- The step of a RUNNING channel: it advances, and PLAYOUT DONE is queued when that ends its count (R160). -/
theorem State.playoutStep_running {c : Nat} (h : (s.channel c).status = .running) :
    s.playoutStep c =
      if (s.channel c).advanced.status = .countDone then
        (s.setChannel c (s.channel c).advanced).report (.playoutDone c (s.channel c).start (s.channel c).length)
      else s.setChannel c (s.channel c).advanced := by
  simp only [State.playoutStep, h]

theorem State.playoutStep_goesOn {c : Nat} {v : Channel} (hrunning : (s.channel c).status = .running)
    (hadvanced : (s.channel c).advanced = v) (hstatus : v.status = .running) : s.playoutStep c = s.setChannel c v := by
  rw [State.playoutStep_running hrunning, hadvanced, if_neg (by rw [hstatus]; decide)]

theorem State.playoutStep_ends {c : Nat} {v : Channel} (hrunning : (s.channel c).status = .running)
    (hadvanced : (s.channel c).advanced = v) (hstatus : v.status = .countDone) :
    s.playoutStep c =
      (s.setChannel c v).report (.playoutDone c (s.channel c).start (s.channel c).length) := by
  rw [State.playoutStep_running hrunning, hadvanced, if_pos hstatus]

/-- The advance that a boundary owes: the event is struck off and the channel takes its step (R160). -/
theorem State.takePlayout_owed {c : Nat} (h : c ∈ s.boundary.playoutDue) :
    s.takePlayout c =
      State.playoutStep { s with boundary := { s.boundary with playoutDue := s.boundary.playoutDue.erase c } } c :=
  if_pos h

theorem exec_playoutAdvance (h : s.pulsed) (c : Fin 16) :
    exec (.playoutAdvance c) s = .next (s.takePlayout c.val) :=
  State.whilePulsed_of_pulsed h fun v => v.takePlayout c.val

/-- Settles O45: an owed advance is the channel's step in the state that the event has been struck off, by where the
channel stands in its stretch and what is left of its count. -/
theorem playoutAdvances : Obligations.PlayoutAdvances := by
  intro c s u hpulsed hu
  rw [exec_playoutAdvance hpulsed]
  refine ⟨fun hidle => congrArg _ (State.takePlayout_idle hidle), fun hdue => ?_⟩
  have hchannel : s.channel c.val = u.channel c.val := by rw [hu]; rfl
  rw [State.takePlayout_owed hdue, ← hu, hchannel]
  refine ⟨fun hidle => congrArg _ (State.playoutStep_idle hidle), fun hrunning =>
    ⟨fun hwithin => congrArg _ (State.playoutStep_goesOn hrunning (Channel.advanced_within hwithin) hrunning),
      fun hend => ?_⟩⟩
  have hwrap := Channel.advanced_atEnd hend
  exact ⟨fun h => congrArg _ (State.playoutStep_goesOn hrunning (hwrap.trans (Channel.wrap_endless h)) hrunning),
    fun n h => congrArg _ (State.playoutStep_goesOn hrunning (hwrap.trans (Channel.wrap_again h)) hrunning),
    fun h => congrArg _ (State.playoutStep_ends hrunning (hwrap.trans (Channel.wrap_last h)) rfl)⟩

end Sys2Proof.Machine
end

section
/-! The settings and the pages of the Control Channel Unit: SET DEVICE and READ (R168, R169). -/

namespace Sys2Proof.Machine

variable {s : State}

/-! ### SET DEVICE (R168) -/

theorem exec_setDevice (h : s.inFrame) (tag : Byte) (n value : Nat) :
    exec (.setDevice tag n value) s = .next (s.setDevice tag n value) :=
  State.managementCell_inFrame h fun v => v.setDevice tag n value

theorem isSetting_iff (n : Nat) : isSetting n = true ↔ (1 ≤ n ∧ n ≤ 8) ∨ (17 ≤ n ∧ n ≤ 36) := by
  simp [isSetting]

section

variable (tag : Byte) {n value : Nat}

theorem State.setDevice_unknown (h : n = 0 ∨ (8 < n ∧ n < 17) ∨ 36 < n) :
    s.setDevice tag n value = s.refuse tag 17 .badValue := by
  have hnone : ¬ isSetting n = true := by rw [isSetting_iff]; omega
  rw [State.setDevice, if_pos (by simpa using hnone)]

theorem State.setDevice_inUse (hset : isSetting n = true) (hn : n ≤ 2) (hopen : s.openContexts ≠ []) :
    s.setDevice tag n value = s.refuse tag 17 .inUse := by
  rw [State.setDevice, hset, if_neg (by decide), if_pos ⟨hn, hopen⟩]

theorem State.setDevice_badValue (hset : isSetting n = true) (hfree : n ≤ 2 → s.openContexts = [])
    (hvalue : appliedSetting n value = none) : s.setDevice tag n value = s.refuse tag 17 .badValue := by
  have hidle : ¬ (n ≤ 2 ∧ s.openContexts ≠ []) := fun ⟨hn, hopen⟩ => hopen (hfree hn)
  simp only [State.setDevice, hset, hvalue, if_neg hidle, Bool.not_true, Bool.false_eq_true, if_false]

theorem State.setDevice_applied (hset : isSetting n = true) (hfree : n ≤ 2 → s.openContexts = []) {v : Nat}
    (hvalue : appliedSetting n value = some v) :
    s.setDevice tag n value =
      ({ s with settings := s.settings.write n v } : State).accept tag (.setDevice n v) := by
  have hidle : ¬ (n ≤ 2 ∧ s.openContexts ≠ []) := fun ⟨hn, hopen⟩ => hopen (hfree hn)
  simp only [State.setDevice, hset, hvalue, if_neg hidle, Bool.not_true, Bool.false_eq_true, if_false]

end

theorem roleOfValue_some {value : Nat} {role : Option Nat}
    (h : (value ≤ 15 ∧ role = some value) ∨ (value = 65535 ∧ role = none)) : roleOfValue value = some role := by
  obtain ⟨hle, rfl⟩ | ⟨rfl, rfl⟩ := h
  · rw [roleOfValue, if_neg (by omega), if_pos hle]
  · rfl

theorem roleOfValue_none {value : Nat} (hlow : 15 < value) (hne : value ≠ 65535) : roleOfValue value = none := by
  rw [roleOfValue, if_neg hne, if_neg (Nat.not_le.2 hlow)]

/-- The three tone roles take the value carried exactly when it names a channel or NONE (R168). -/
theorem appliedSetting_role {n : Nat} (hlow : 6 ≤ n) (hhigh : n ≤ 8) (value : Nat) :
    appliedSetting n value = (roleOfValue value).map fun _ => value := by
  obtain rfl | rfl | rfl : n = 6 ∨ n = 7 ∨ n = 8 := by omega
  all_goals rfl

theorem appliedSetting_syncSpan {value : Nat} (h : value ∈ [256, 512, 1024, 2048, 4096, 8192]) :
    appliedSetting 1 value = some value := if_pos (decide_eq_true h)

theorem appliedSetting_syncSpan_none {value : Nat} (h : value ∉ [256, 512, 1024, 2048, 4096, 8192]) :
    appliedSetting 1 value = none := if_neg fun hspan => h (of_decide_eq_true hspan)

theorem appliedSetting_level {n : Nat} (h : 17 ≤ n) (value : Nat) : appliedSetting n value = some (min 7 value) := by
  unfold appliedSetting
  split
  case h_9 => rfl
  all_goals omega

/-- The report kind whose level setting stands at a place (R168, R171). -/
def ReportKind.ofPlace (place : Fin 20) : ReportKind :=
  #v[.restarted, .syncLost, .keyMiss, .pairBroken, .barred, .callClosed, .stagedTaken, .lapsed, .displaced, .moved,
    .rejected, .admitted, .signedOff, .unknownIdentity, .slip, .txRekeySkipped, .syncAligned, .txRekeyed, .rxRekeyed,
    .playoutDone][place]

theorem ReportKind.ofPlace_place (kind : ReportKind) : ReportKind.ofPlace kind.place = kind := by
  cases kind <;> rfl

/-- Each report kind has a level setting of its own (R168, R171). -/
theorem ReportKind.place_inj {a b : ReportKind} : a.place = b.place ↔ a = b :=
  (Function.LeftInverse.injective ReportKind.ofPlace_place).eq_iff

/-- A level setting writes the level of its own report kind (R168). -/
theorem Settings.write_level (settings : Settings) (kind : ReportKind) (v : Nat) :
    settings.write (17 + kind.place.val) v = { settings with levels := settings.levels.set kind.place v } := by
  have hlow : 17 ≤ 17 + kind.place.val := Nat.le_add_right ..
  unfold Settings.write
  split
  case h_9 =>
    rw [if_pos hlow]
    simp [Vector.setIfInBounds, Vector.set, Array.setIfInBounds]
  all_goals omega

theorem Settings.level_write_level (settings : Settings) (kind other : ReportKind) (v : Nat) :
    (settings.write (17 + kind.place.val) v).levels[other.place] =
      if other = kind then v else settings.levels[other.place] := by
  rw [Settings.write_level]
  simp [Vector.getElem_set, Fin.val_inj, ReportKind.place_inj, eq_comm]

theorem State.accept_withSettings (s : State) (settings : Settings) (tag : Byte) (values : Accepted) :
    ({ s with settings := settings } : State).accept tag values = { s.accept tag values with settings := settings } :=
  State.accept_comm (f := fun t => { t with settings := settings }) (fun _ => rfl) (SameReports.refl s) tag values

/-- Settles O46: each clause is the case of its setting in the cell's own checks. -/
theorem settingsAreWritten : Obligations.SettingsAreWritten := by
  intro tag value s hframe
  simp only [exec_setDevice hframe]
  have hlate {n : Nat} (hn : 2 < n) : n ≤ 2 → s.openContexts = [] := fun hle => absurd hle (Nat.not_le.2 hn)
  refine ⟨fun n hn => congrArg _ (State.setDevice_unknown tag hn),
    fun hopen => ⟨congrArg _ (State.setDevice_inUse tag rfl (by decide) hopen),
      congrArg _ (State.setDevice_inUse tag rfl (by decide) hopen)⟩,
    fun hfree => ⟨fun hspan =>
        congrArg _ (State.setDevice_applied tag rfl (fun _ => hfree) (appliedSetting_syncSpan hspan)),
      fun hspan => congrArg _ (State.setDevice_badValue tag rfl (fun _ => hfree) (appliedSetting_syncSpan_none hspan)),
      congrArg _ (State.setDevice_applied tag rfl (fun _ => hfree) rfl)⟩,
    congrArg _ (State.setDevice_applied tag rfl (hlate (by decide)) rfl),
    congrArg _ (State.setDevice_applied tag rfl (hlate (by decide)) rfl),
    congrArg _ (State.setDevice_applied tag rfl (hlate (by decide)) rfl), fun role hrole => ?_,
    fun n hlow hhigh hvalue hne => congrArg _ ?_, fun kind => ⟨_, rfl, ?_⟩⟩
  · have hwritten := roleOfValue_some hrole
    have hsets {n : Nat} (hlow : 6 ≤ n) (hhigh : n ≤ 8) :=
      s.setDevice_applied tag ((isSetting_iff n).2 (by omega)) (hlate (by omega))
        ((appliedSetting_role hlow hhigh value).trans (congrArg _ hwritten))
    rw [hsets (by decide) (by decide), hsets (by decide) (by decide), hsets (by decide) (by decide)]
    simp only [Settings.write, hwritten]
    exact ⟨rfl, rfl, rfl⟩
  · exact State.setDevice_badValue tag ((isSetting_iff n).2 (by omega)) (hlate (by omega))
      ((appliedSetting_role hlow hhigh value).trans (congrArg _ (roleOfValue_none hvalue hne)))
  · have hkind := kind.place.isLt
    rw [State.setDevice_applied tag ((isSetting_iff _).2 (by omega)) (hlate (by omega))
      (appliedSetting_level (Nat.le_add_right ..) value), State.accept_withSettings]
    exact ⟨fun other => s.settings.level_write_level kind other _, by rw [Settings.write_level]; rfl⟩

/-! ### READ (R169) -/

theorem exec_read (h : s.inFrame) (tag : Byte) (kind index part : Nat) :
    exec (.read tag kind index part) s = .next (s.readPage tag kind index part) :=
  State.managementCell_inFrame h fun v => v.readPage tag kind index part

theorem pageSize_none {kind : Nat} (h : kind = 0 ∨ 9 < kind) : pageSize kind = none := by
  unfold pageSize
  split
  case h_10 => rfl
  all_goals omega

/-- The nine page kinds, each with the number of its indices and of its parts (R169, R177). -/
def pageTable : List (Nat × Nat × Nat) :=
  [(1, 1024, 3), (2, 1024, 2), (3, 480, 1), (4, 480, 2), (5, 256, 2), (6, 256, 2), (7, 16, 2), (8, 16, 2), (9, 1, 4)]

theorem pageSize_of_mem {kind size parts : Nat} (h : (kind, size, parts) ∈ pageTable) : pageSize kind = some size := by
  have hall : ∀ x ∈ pageTable, pageSize x.1 = some x.2.1 := by decide
  exact hall _ h

theorem State.extensionCandidatePage_isSome (s : State) (e part : Nat) :
    (s.extensionCandidatePage e part).isSome = decide (part < 2) := by
  match part with
  | 0 => cases hcandidate : (s.entry e).candidate <;> simp [State.extensionCandidatePage, hcandidate]
  | 1 | _ + 2 => rfl

/-- A page has exactly the parts that its kind gives it (R177). -/
theorem State.page_isSome (s : State) {kind size parts : Nat} (h : (kind, size, parts) ∈ pageTable) (index part : Nat) :
    (s.page kind index part).isSome = decide (part < parts) := by
  simp only [pageTable, List.mem_cons, Prod.mk.injEq, List.not_mem_nil, or_false] at h
  rcases h with ⟨rfl, -, rfl⟩ | ⟨rfl, -, rfl⟩ | ⟨rfl, -, rfl⟩ | ⟨rfl, -, rfl⟩ | ⟨rfl, -, rfl⟩ | ⟨rfl, -, rfl⟩ |
    ⟨rfl, -, rfl⟩ | ⟨rfl, -, rfl⟩ | ⟨rfl, -, rfl⟩
  case inr.inl => exact s.extensionCandidatePage_isSome index part
  all_goals
    match part with
    | 0 | 1 | 2 | 3 | _ + 4 => rfl

theorem sixBytes_length (bytes : List Byte) : (sixBytes bytes).length = 6 := by simp [sixBytes]

theorem State.joinCell_withFreeCount (s : State) (n level : Nat) (cell : OutCell) :
    ({ s with freeCount := n } : State).joinCell level cell = { s.joinCell level cell with freeCount := n } := by
  simp only [State.joinCell]
  split
  · rfl
  · split <;> rfl

section

variable (tag : Byte) {kind size index part : Nat}

theorem State.readPage_badKind (h : pageSize kind = none) :
    s.readPage tag kind index part = s.refuse tag 18 .badValue := by
  rw [State.readPage, h]

theorem State.readPage_badIndex (hsize : pageSize kind = some size) (h : size ≤ index) :
    s.readPage tag kind index part = s.refuse tag 18 .badIndex := by
  simp only [State.readPage, hsize, if_pos h]

theorem State.readPage_badPart (hsize : pageSize kind = some size) (hindex : index < size)
    (h : s.page kind index part = none) : s.readPage tag kind index part = s.refuse tag 18 .badValue := by
  simp only [State.readPage, hsize, if_neg (Nat.not_le.2 hindex), h]

theorem State.readPage_answers (hsize : pageSize kind = some size) (hindex : index < size) {page : List PageByte}
    (h : s.page kind index part = some page) : s.readPage tag kind index part = s.answerPage tag page := by
  simp only [State.readPage, hsize, if_neg (Nat.not_le.2 hindex), h]

end

/-- Settles O47: the checks are read off the cell in their order, with the sizes and the parts of the nine pages. -/
theorem readIsChecked : Obligations.ReadIsChecked := by
  intro tag kind index part size parts s hframe
  rw [exec_read hframe]
  refine ⟨fun hkind => congrArg _ (State.readPage_badKind tag (pageSize_none hkind)), fun hmem => ?_⟩
  have hsize := pageSize_of_mem hmem
  have hparts := s.page_isSome hmem index part
  refine ⟨fun hindex => congrArg _ (State.readPage_badIndex tag hsize hindex), fun hindex hpart => congrArg _ ?_,
    fun hindex hpart => ?_⟩
  · rw [decide_eq_false (Nat.not_lt.2 hpart), Option.isSome_eq_false_iff, Option.isNone_iff_eq_none] at hparts
    exact State.readPage_badPart tag hsize hindex hparts
  · rw [decide_eq_true hpart, Option.isSome_iff_exists] at hparts
    obtain ⟨page, hpage⟩ := hparts
    refine ⟨sixBytes (fillFree s.freeCount page), openCount page, sixBytes_length _, congrArg _ ?_⟩
    rw [State.readPage_answers tag hsize hindex hpage, State.answerPage, State.joinCell_withFreeCount]

end Sys2Proof.Machine
end

section
/-! The cells as bytes (R164, R174, R176): the fields read back from the bytes that carry them, the bytes that a decoder
finds in an encoded cell, and both directions of the encoding of management cells and of line cells. -/

namespace Sys2Proof.Machine

/-! ### Fields (R174) -/

theorem byte_lt (b : Byte) : b.toNat < 256 := b.isLt

theorem byte_toNat_ne {b c : Byte} (h : b ≠ c) : b.toNat ≠ c.toNat := fun heq => h (BitVec.eq_of_toNat_eq heq)

theorem byte_toNat_pos {b : Byte} (h : b ≠ 0) : 0 < b.toNat := Nat.pos_of_ne_zero (byte_toNat_ne h)

theorem byte_ofNat_toNat {n : Nat} (h : n < 256) : (BitVec.ofNat 8 n).toNat = n := Nat.mod_eq_of_lt h

theorem byte_ofNat_ne_zero {n : Nat} (hpos : 0 < n) (hlt : n < 256) : ¬ BitVec.ofNat 8 n = 0 := fun h => by
  have hread := byte_ofNat_toNat hlt
  rw [h] at hread
  exact hpos.ne hread

theorem read2_ofNat {n : Nat} (h : n < 65536) : read2 (BitVec.ofNat 8 (n / 256)) (BitVec.ofNat 8 n) = n := by
  simp only [read2, BitVec.toNat_ofNat]
  omega

theorem read4_ofNat {n : Nat} (h : n < 4294967296) :
    read4 (BitVec.ofNat 8 (n / 16777216)) (BitVec.ofNat 8 (n / 65536)) (BitVec.ofNat 8 (n / 256)) (BitVec.ofNat 8 n) =
      n := by
  simp only [read4, BitVec.toNat_ofNat]
  omega

theorem read2_lt (b0 b1 : Byte) : read2 b0 b1 < 65536 := by
  have h0 := b0.isLt
  have h1 := b1.isLt
  unfold read2
  omega

theorem read4_lt (b0 b1 b2 b3 : Byte) : read4 b0 b1 b2 b3 < 4294967296 := by
  have hhigh := read2_lt b0 b1
  have hlow := read2_lt b2 b3
  have hread : read4 b0 b1 b2 b3 = read2 b0 b1 * 65536 + read2 b2 b3 := rfl
  omega

/-- A word is its two bytes, high byte first. -/
theorem keyWord_of_bytes (w : KeyWord) : BitVec.ofNat 8 (w.toNat / 256) ++ BitVec.setWidth 8 w = w := by
  apply BitVec.eq_of_toNat_eq
  rw [BitVec.toNat_append, ← Nat.shiftLeft_add_eq_or_of_lt (BitVec.isLt _), Nat.shiftLeft_eq]
  have hw := w.isLt
  simp only [BitVec.toNat_ofNat, BitVec.toNat_setWidth]
  omega

/-- The half and the index packed in one field come apart again (R174). -/
theorem halfOf_packed (half : Half) {n : Nat} (h : n < 32768) : halfOf ((32768 * halfBit half + n) / 32768) = half := by
  have hbit : (32768 * halfBit half + n) / 32768 = halfBit half := by omega
  rw [hbit]
  cases half <;> rfl

theorem packed_half_lt (half : Half) {n : Nat} (h : n < 32768) : 32768 * halfBit half + n < 65536 := by
  cases half <;> simp only [halfBit] <;> omega

theorem packed_div {base : Nat} (k : Nat) {n : Nat} (h : n < base) : (base * k + n) / base = k := by
  rw [Nat.mul_add_div (by omega), Nat.div_eq_of_lt h, Nat.add_zero]

/-! ### The eight bytes of a cell (R174) -/

theorem eightBytes_length (bytes : List Byte) : (eightBytes bytes).length = 8 := by simp [eightBytes]

theorem exists_of_length_eq_eight {bytes : List Byte} (h : bytes.length = 8) :
    ∃ b0 b1 b2 b3 b4 b5 b6 b7, bytes = [b0, b1, b2, b3, b4, b5, b6, b7] := by
  match bytes, h with
  | [b0, b1, b2, b3, b4, b5, b6, b7], _ => exact ⟨b0, b1, b2, b3, b4, b5, b6, b7, rfl⟩

/-- A cell holds the bytes of its layout at their places and 0 behind them. -/
theorem eightBytes_eq (bytes : List Byte) : eightBytes bytes = (List.range 8).map fun k => bytes.getD k 0 := by
  refine List.ext_getElem (by simp [eightBytes]) fun k hk _ => ?_
  simp only [eightBytes, List.length_take, List.length_append, List.length_replicate] at hk
  by_cases h : k < bytes.length
  · simp [eightBytes, h]
  · simp [eightBytes, List.getElem_append, h, -List.reduceReplicate]

end Sys2Proof.Machine

namespace Sys2Proof

open Sys2Proof.Machine

/-! ### Management cells (R164, R174) -/

/-- The management cell whose payload starts with the bytes given and is filled with 0. -/
def decodePayload (kind : Nat) (tag : Byte) (payload : List Byte) : Instr :=
  decodeKind kind tag (payload.getD 0 0) (payload.getD 1 0) (payload.getD 2 0) (payload.getD 3 0) (payload.getD 4 0)
    (payload.getD 5 0)

/-- The decoder finds the kind, the tag and the payload of an encoded cell. -/
theorem decodeManagementCell_eightBytes {kind : Nat} (hpos : 0 < kind) (hlt : kind < 256) (tag : Byte)
    (payload : List Byte) :
    decodeManagementCell (eightBytes (field1 kind ++ [tag] ++ payload)) = some (decodePayload kind tag payload) := by
  rw [eightBytes_eq]
  refine (if_neg (byte_ofNat_ne_zero hpos hlt)).trans (congrArg some ?_)
  exact congrArg (fun k => decodePayload k tag payload) (byte_ofNat_toNat hlt)

/-- The payload of a well-formed cell of a known kind is read back as the cell. -/
theorem decodePayload_managementPayload {i : Instr} (hwf : i.wellFormed = true)
    (hknown : ∀ tag kind, i ≠ .unknownKind tag kind) (hidle : i ≠ .managementIdle) :
    ∀ p ∈ managementPayload i, decodePayload p.1 p.2.1 p.2.2 = i := by
  cases i
  all_goals simp only [Instr.wellFormed, Bool.and_eq_true, decide_eq_true_eq] at hwf
  case managementIdle => exact absurd rfl hidle
  case unknownKind => exact absurd rfl (hknown _ _)
  case loadExtension tag entry group identity =>
    obtain ⟨⟨hentry, hgroup⟩, hidentity⟩ := hwf
    have hfield : 4096 * group + entry < 65536 := by omega
    simp [managementPayload, decodePayload, decodeKind, field2, field4, read2_ofNat hfield, read4_ofNat hidentity,
      packed_div, hentry]
  case secretHalf tag half index first second | stagedHalf tag half index first second =>
    simp [managementPayload, decodePayload, decodeKind, field2, wordField, read2_ofNat (packed_half_lt half hwf),
      halfOf_packed, keyWord_of_bytes, hwf]
  case setPlayout tag channel repeats mode start length =>
    obtain ⟨⟨⟨⟨hchannel, hrepeats⟩, hmode⟩, hstart⟩, hlength⟩ := hwf
    have hfield : 16384 * mode + start < 65536 := by omega
    simp [managementPayload, decodePayload, decodeKind, field1, field2, read2_ofNat hfield, read2_ofNat hlength,
      packed_div, Nat.mod_eq_of_lt, hchannel, hrepeats, hstart]
  case restartCalls tag scope =>
    obtain ⟨hscope, hne⟩ := hwf
    have hbyte : ¬ BitVec.ofNat 8 scope = 2#8 := fun h =>
      hne ((byte_ofNat_toNat hscope).symm.trans (congrArg BitVec.toNat h))
    simp [managementPayload, decodePayload, decodeKind, field1, hbyte, Nat.mod_eq_of_lt hscope]
  case unloadExtension | forceSignOff | bar | unbar | closeCall | setGroupLimits | setGroupTimes | openCall
      | setPositionTreatment | setPositionGain | loadPattern | stopPlayout | setDevice | read | restartAll =>
    simp [managementPayload, decodePayload, decodeKind, field1, field2, read2_ofNat, Nat.mod_eq_of_lt, hwf]
  all_goals exact nofun

theorem managementPayload_kind {i : Instr} (hknown : ∀ tag kind, i ≠ .unknownKind tag kind)
    (hidle : i ≠ .managementIdle) : ∀ p ∈ managementPayload i, 0 < p.1 ∧ p.1 < 256 := by
  cases i
  case managementIdle => exact absurd rfl hidle
  case unknownKind => exact absurd rfl (hknown _ _)
  all_goals simp [managementPayload]

theorem encodeManagementCell_length {i : Instr} {bytes : List Byte} (h : encodeManagementCell i = some bytes) :
    bytes.length = 8 := by
  obtain ⟨p, -, rfl⟩ := Option.map_eq_some_iff.1 h
  exact eightBytes_length _

/-- A well-formed cell of a known kind is read back from its bytes. -/
theorem decodeManagementCell_encode {i : Instr} {bytes : List Byte} (hwf : i.wellFormed = true)
    (hknown : ∀ tag kind, i ≠ .unknownKind tag kind) (h : encodeManagementCell i = some bytes) :
    decodeManagementCell bytes = some i := by
  obtain ⟨⟨kind, tag, payload⟩, hpayload, rfl⟩ := Option.map_eq_some_iff.1 h
  by_cases hidle : i = .managementIdle
  · subst hidle
    obtain ⟨rfl, rfl, rfl⟩ : 0 = kind ∧ 0 = tag ∧ [] = payload := by simpa [managementPayload] using hpayload
    rfl
  · obtain ⟨hpos, hlt⟩ := managementPayload_kind hknown hidle _ hpayload
    exact (decodeManagementCell_eightBytes hpos hlt tag payload).trans
      (congrArg some (decodePayload_managementPayload hwf hknown hidle _ hpayload))

theorem decodeKind_unknown {kind : Nat} (h : 19 < kind) (tag b2 b3 b4 b5 b6 b7 : Byte) :
    decodeKind kind tag b2 b3 b4 b5 b6 b7 = .unknownKind tag kind := by
  unfold decodeKind
  split
  case h_20 => rfl
  all_goals omega

/-- An unknown kind comes back as the byte that it was sent as (R164). -/
theorem decodeManagementCell_encode_unknownKind {tag : Byte} {kind : Nat} {bytes : List Byte} (hunknown : 19 < kind)
    (hlt : kind < 256) (h : encodeManagementCell (.unknownKind tag kind) = some bytes) :
    decodeManagementCell bytes = some (.unknownKind tag kind) := by
  obtain rfl := Option.some.inj h
  exact (decodeManagementCell_eightBytes (by omega) hlt tag []).trans (congrArg some (decodeKind_unknown hunknown ..))

/-- What is read from the bytes of a cell that is not idle is well formed: each field fits the bits that carry it. -/
theorem decodeKind_wellFormed {kind : Nat} (hpos : 0 < kind) (hlt : kind < 256) (tag b2 b3 b4 b5 b6 b7 : Byte) :
    (decodeKind kind tag b2 b3 b4 b5 b6 b7).wellFormed = true := by
  unfold decodeKind
  split
  case h_1 =>
    have hfield := read2_lt b2 b3
    have hgroup : read2 b2 b3 / 4096 < 16 := by omega
    simp [Instr.wellFormed, hgroup, read4_lt, Nat.mod_lt]
  case h_15 =>
    have hpacked := read2_lt b4 b5
    have hmode : read2 b4 b5 / 16384 < 4 := by omega
    simp [Instr.wellFormed, hmode, byte_lt, read2_lt, Nat.mod_lt]
  case h_19 =>
    split
    · rfl
    · next hscope =>
      have hne : b2.toNat ≠ 2 := byte_toNat_ne hscope
      simp [Instr.wellFormed, byte_lt, hne]
  case h_20 =>
    have hunknown : 19 < kind := by grind
    simp [Instr.wellFormed, hunknown, hlt]
  all_goals simp [Instr.wellFormed, byte_lt, read2_lt, Nat.mod_lt]

/-- Every eight bytes are read as one well-formed management cell. -/
theorem decodeManagementCell_total {bytes : List Byte} (h : bytes.length = 8) :
    ∃ i, decodeManagementCell bytes = some i ∧ i.wellFormed = true := by
  obtain ⟨b0, tag, b2, b3, b4, b5, b6, b7, rfl⟩ := exists_of_length_eq_eight h
  by_cases hidle : b0 = 0
  · exact ⟨.managementIdle, if_pos hidle, rfl⟩
  · exact ⟨_, if_neg hidle, decodeKind_wellFormed (byte_toNat_pos hidle) (byte_lt b0) ..⟩

/-! ### Line cells (R70, R176) -/

/-- The line cell of a speech slot whose payload starts with the bytes given and is filled with 0. -/
def decodeLinePayload (h : Fin 4) (kind slot : Nat) (payload : List Byte) : Instr :=
  decodeLineKind h kind slot (payload.getD 0 0) (payload.getD 1 0) (payload.getD 2 0) (payload.getD 3 0)

/-- The decoder finds the kind, the slot and the payload of an encoded cell. -/
theorem decodeLineCell_eightBytes (h : Fin 4) {kind slot : Nat} (hpos : 0 < kind) (hkind : kind < 256) (hslot : slot < 256)
    (payload : List Byte) :
    decodeLineCell h (eightBytes (field1 kind ++ field1 slot ++ payload)) =
      if 120 ≤ slot then some (.lineCellDiscarded h kind slot) else some (decodeLinePayload h kind slot payload) := by
  rw [eightBytes_eq]
  refine (if_neg (byte_ofNat_ne_zero hpos hkind)).trans ?_
  exact congrArg₂
    (fun k n => if 120 ≤ n then some (.lineCellDiscarded h k n) else some (decodeLinePayload h k n payload))
    (byte_ofNat_toNat hkind) (byte_ofNat_toNat hslot)

theorem decodeLineCell_speechSlot (h : Fin 4) {kind slot : Nat} (hpos : 0 < kind) (hkind : kind < 256)
    (hslot : slot < 120) (payload : List Byte) :
    decodeLineCell h (eightBytes (field1 kind ++ field1 slot ++ payload)) =
      some (decodeLinePayload h kind slot payload) :=
  (decodeLineCell_eightBytes h hpos hkind (by omega) payload).trans (if_neg (Nat.not_le.2 hslot))

theorem decodeLineKind_unknown {kind : Nat} (hkind : 4 < kind) (h : Fin 4) (slot : Nat) (b2 b3 b4 b5 : Byte) :
    decodeLineKind h kind slot b2 b3 b4 b5 = .lineCellDiscarded h kind slot := by
  unfold decodeLineKind
  split
  case h_5 => rfl
  all_goals omega

/-- A well-formed line cell is read back from its bytes. -/
theorem decodeLineCell_encode {i : Instr} {h : Fin 4} {bytes : List Byte} (hwf : i.wellFormed = true)
    (hencode : encodeLineCell i = some (h, bytes)) : bytes.length = 8 ∧ decodeLineCell h bytes = some i := by
  cases i
  all_goals simp only [encodeLineCell, Option.some.injEq, Prod.mk.injEq, reduceCtorEq] at hencode
  all_goals obtain ⟨rfl, rfl⟩ := hencode
  all_goals simp only [Instr.wellFormed, Bool.and_eq_true, decide_eq_true_eq] at hwf
  all_goals refine ⟨eightBytes_length _, ?_⟩
  case lineIdle => rfl
  case lineCellDiscarded h kind slot =>
    obtain ⟨⟨hkind, hslot⟩, hdiscarded⟩ := hwf
    refine (decodeLineCell_eightBytes h (by omega) hkind hslot []).trans ?_
    split
    · rfl
    · exact congrArg some (decodeLineKind_unknown (by omega) ..)
  case signOn h slot identity =>
    obtain ⟨hslot, hidentity⟩ := hwf
    exact (decodeLineCell_speechSlot h (kind := 1) (by decide) (by decide) hslot (field4 identity)).trans
      (congrArg (fun n => some (Instr.signOn h slot n)) (read4_ofNat hidentity))
  case answer h slot r =>
    exact decodeLineCell_speechSlot h (kind := 2) (by decide) (by decide) hwf [r.b1, r.b2, r.b3, r.b4]
  case keepalive h slot => exact decodeLineCell_speechSlot h (kind := 3) (by decide) (by decide) hwf []
  case signOff h slot => exact decodeLineCell_speechSlot h (kind := 4) (by decide) (by decide) hwf []

theorem decodeLineKind_wellFormed {kind slot : Nat} (hpos : 0 < kind) (hkind : kind < 256) (hslot : slot < 120) (h : Fin 4)
    (b2 b3 b4 b5 : Byte) : (decodeLineKind h kind slot b2 b3 b4 b5).wellFormed = true := by
  unfold decodeLineKind
  split
  case h_5 =>
    have hunknown : 4 < kind := by grind
    simp [Instr.wellFormed, hunknown, hkind, hslot.trans]
  all_goals simp [Instr.wellFormed, hslot, read4_lt]

/-- Every eight bytes are read as one well-formed line cell. -/
theorem decodeLineCell_total (h : Fin 4) {bytes : List Byte} (hlength : bytes.length = 8) :
    ∃ i, decodeLineCell h bytes = some i ∧ i.wellFormed = true := by
  obtain ⟨b0, b1, b2, b3, b4, b5, b6, b7, rfl⟩ := exists_of_length_eq_eight hlength
  by_cases hidle : b0 = 0
  · exact ⟨.lineIdle h, if_pos hidle, rfl⟩
  · have hpos := byte_toNat_pos hidle
    by_cases hslot : 120 ≤ b1.toNat
    · exact ⟨.lineCellDiscarded h b0.toNat b1.toNat, (if_neg hidle).trans (if_pos hslot),
        by simp [Instr.wellFormed, byte_lt, hpos.ne', hslot]⟩
    · exact ⟨_, (if_neg hidle).trans (if_neg hslot),
        decodeLineKind_wellFormed hpos (byte_lt b0) (Nat.not_le.1 hslot) h ..⟩

/-- Settles O51: an encoded cell shows the decoder its kind and payload, whose fields are read back; and each field that is
read fits the bits that carry it. -/
theorem cellsDecodeBack : Obligations.CellsDecodeBack :=
  ⟨fun _ _ hwf hknown h => ⟨encodeManagementCell_length h, decodeManagementCell_encode hwf hknown h⟩,
    fun _ _ _ hunknown hlt h => decodeManagementCell_encode_unknownKind hunknown hlt h,
    fun _ _ _ hwf h => decodeLineCell_encode hwf h, fun _ h => decodeManagementCell_total h,
    fun h _ hlength => decodeLineCell_total h hlength⟩

end Sys2Proof
end

section
/-! The queue's own rule (assumption 1): the two branches of `step`, one for each shape of the queue. -/

namespace Sys2Proof.Machine

/-- The command runs on the state it leaves behind in the queue, so it never sees itself waiting. -/
theorem step_of_pending_cons {s : State} {c : Instr} {rest : List Instr} (h : s.pending = c :: rest) :
    step s = exec c { s with pending := rest } := by
  unfold step
  rw [h]

theorem step_of_pending_nil {s : State} (h : s.pending = []) : step s = .next s := by
  unfold step
  rw [h]

/-- Settles O1: a queue has a front command or is empty, and `step` has one branch for each. -/
theorem stepRunsFrontCommand : Obligations.StepRunsFrontCommand :=
  ⟨fun _ _ _ hfront => step_of_pending_cons hfront, fun _ hempty => step_of_pending_nil hempty⟩

end Sys2Proof.Machine
end

section
/-! The ranges of the fields (R8, R9, R32, R52, R65, R73, R92, R114, R148, R157, R168, R171): well-formedness with a name
for each of its parts, and what every event of a boundary keeps of it. An event also leaves alone what no boundary
writes. -/

namespace Sys2Proof.Machine

variable {α : Type} {s t u : State}

/-! ### Tables -/

/-- A table in canonical form below `n`, each of whose records satisfies `P`. -/
structure Table.Within [DecidableEq α] (n : Nat) (d : α) (P : α → Bool) (t : Table α) : Prop where
  wf : Table.wf n d t = true
  records : t.all (fun x => P x.2) = true

section

variable [DecidableEq α] {n : Nat} {d : α} {P : α → Bool} {t : Table α}

theorem Table.Within.get (h : Table.Within n d P t) (hd : P d = true) (i : Nat) : P (Table.get d t i) = true :=
  Table.all_get h.records hd i

theorem Table.Within.set (h : Table.Within n d P t) {i : Nat} {v : α} (hi : i < n) (hv : P v = true) :
    Table.Within n d P (Table.set d t i v) :=
  ⟨Table.set_wf h.wf hi, Table.all_set h.records hv⟩

theorem Table.Within.mapAll (h : Table.Within n d P t) {f : α → α} (hf : ∀ v, P v = true → P (f v) = true) :
    Table.Within n d P (Table.mapAll d f t) :=
  ⟨Table.map_wf f h.wf, Table.all_mapAll h.records hf⟩

theorem Table.lt_of_mem_indices (h : Table.wf n d t = true) {i : Nat} (hi : i ∈ t.indices) : i < n := by
  obtain ⟨x, hx, rfl⟩ := List.mem_map.1 hi
  exact (Table.wf_bound h x hx).1

omit [DecidableEq α] in
theorem Table.mem_indices_of_get {i : Nat} (hi : Table.get d t i ≠ d) : i ∈ t.indices := by
  by_contra hunlisted
  exact hi (Table.get_unlisted fun x hx heq => hunlisted (List.mem_map.2 ⟨x, hx, heq⟩))

end

/-! ### The parts of well-formedness -/

/-- A well-formed state, part by part. -/
structure State.Ranged (s : State) : Prop where
  positions : Table.Within 480 {} Position.inRange s.positions
  entries : Table.Within 1024 {} Entry.inRange s.entries
  groups : Table.Within 16 {} Group.inRange s.groups
  contexts : Table.Within 256 {} Context.inRange s.contexts
  channels : Table.Within 16 {} Channel.inRange s.channels
  highways : Table.Within 4 {} Highway.inRange s.highways
  pattern : s.pattern.wf = true
  commands : ∀ c ∈ s.pending, c.wellFormed = true
  prescale : s.framePrescale ≤ 7999
  boundary : s.boundary.inRange = true
  reserved : ∀ j ∈ s.reserved, j < 256
  inFlight : ∀ f ∈ s.inFlight, f.item.inRange = true
  completing : ∀ f ∈ s.completing, f.item.inRange = true
  verifyQueue : ∀ i ∈ s.verifyQueue, i.inRange = true
  pairBuffer : ∀ h ∈ s.pairBuffer, h.target.inRange = true
  settings : s.settings.inRange = true
  levels : ∀ c ∈ s.reportQueue, c.level ≤ 6
  lostReports : s.lostReports ≤ 65535

theorem State.wf_iff_ranged : s.wf = true ↔ s.Ranged := by
  simp only [State.wf, State.canonical, State.recordsInRange, State.restInRange, Bool.and_eq_true, decide_eq_true_eq]
  constructor
  · rintro ⟨⟨⟨⟨⟨⟨⟨⟨hp, he⟩, hg⟩, hj⟩, hc⟩, hh⟩, hm⟩, ⟨⟨⟨⟨rp, re⟩, rg⟩, rj⟩, rc⟩, rh⟩,
      ⟨⟨⟨⟨⟨⟨⟨⟨⟨h1, h2⟩, h3⟩, h4⟩, h5⟩, h6⟩, h7⟩, h8⟩, h9⟩, h10⟩, h11⟩
    exact ⟨⟨hp, rp⟩, ⟨he, re⟩, ⟨hg, rg⟩, ⟨hj, rj⟩, ⟨hc, rc⟩, ⟨hh, rh⟩, hm, by simpa using h1, h2, h3, by simpa using h4,
      by simpa using h5, by simpa using h6, by simpa using h7, by simpa [Option.all_eq_true] using h8, h9, by simpa using h10, h11⟩
  · rintro ⟨⟨hp, rp⟩, ⟨he, re⟩, ⟨hg, rg⟩, ⟨hj, rj⟩, ⟨hc, rc⟩, ⟨hh, rh⟩, hm, h1, h2, h3, h4, h5, h6, h7, h8, h9, h10, h11⟩
    exact ⟨⟨⟨⟨⟨⟨⟨⟨hp, he⟩, hg⟩, hj⟩, hc⟩, hh⟩, hm⟩, ⟨⟨⟨⟨rp, re⟩, rg⟩, rj⟩, rc⟩, rh⟩, ⟨⟨⟨⟨⟨⟨⟨⟨⟨by simpa using h1, h2⟩, h3⟩,
      by simpa using h4⟩, by simpa using h5⟩, by simpa using h6⟩, by simpa using h7⟩, by simpa [Option.all_eq_true] using h8⟩, h9⟩,
      by simpa using h10⟩, h11⟩

theorem State.Ranged.position (h : s.Ranged) (p : Nat) : (s.position p).inRange = true := h.positions.get rfl p
theorem State.Ranged.entry (h : s.Ranged) (e : Nat) : (s.entry e).inRange = true := h.entries.get rfl e
theorem State.Ranged.group (h : s.Ranged) (g : Nat) : (s.group g).inRange = true := h.groups.get rfl g
theorem State.Ranged.context (h : s.Ranged) (j : Nat) : (s.context j).inRange = true := h.contexts.get rfl j
theorem State.Ranged.channel (h : s.Ranged) (c : Nat) : (s.channel c).inRange = true := h.channels.get rfl c
theorem State.Ranged.highway (h : s.Ranged) (i : Nat) : (s.highway i).inRange = true := h.highways.get rfl i

theorem below_eq_true_iff {n : Nat} {o : Option Nat} : below n o = true ↔ ∀ i ∈ o, i < n := by
  cases o <;> simp [below]

theorem Position.inRange_iff {pos : Position} : pos.inRange = true ↔ pos.toneChannel ≤ 15 ∧ pos.upGain ≤ 512 ∧
    pos.downGain ≤ 512 ∧ (∀ e ∈ pos.owner, e < 1024) ∧ (∀ e ∈ pos.pending, e < 1024) ∧ (∀ j ∈ pos.context, j < 256) ∧
      pos.attempts ≤ 10 ∧ pos.upClamps ≤ 65535 ∧ pos.downClamps ≤ 65535 := by
  simp [Position.inRange, below_eq_true_iff, and_assoc]

theorem Entry.inRange_iff {e : Entry} : e.inRange = true ↔ e.identity ≤ 99999999 ∧ e.group ≤ 15 ∧
    (∀ p ∈ e.home, p < 480) ∧ (∀ c ∈ e.candidate, c.position < 480) ∧ e.failures ≤ 7 ∧ ∀ j ∈ e.context, j < 256 := by
  simp [Entry.inRange, below_eq_true_iff, and_assoc]

/-- The ends of a call are a position and an entry of the part. -/
structure Call.Within (call : Call) : Prop where
  position : call.position < 480
  entry : call.entry < 1024

theorem Context.inRange_iff {c : Context} : c.inRange = true ↔ (∀ call ∈ c.call, call.Within) ∧ c.misses ≤ 7 ∧
    (c.sync = .hunt ∨ c.misses ≤ 6) ∧ c.slips ≤ 255 ∧ c.window.length ≤ 8 := by
  have hcall (o : Option Call) : (below 480 (o.map Call.position) = true ∧ below 1024 (o.map Call.entry) = true) ↔
      ∀ call ∈ o, call.Within := by
    cases o with
    | none => simp [below]
    | some call => simpa [below] using ⟨fun ⟨hp, he⟩ => ⟨hp, he⟩, fun ⟨hp, he⟩ => ⟨hp, he⟩⟩
  simp only [Context.inRange, Bool.and_eq_true, Bool.or_eq_true, decide_eq_true_eq, hcall, and_assoc]

theorem Boundary.inRange_iff {b : Boundary} : b.inRange = true ↔ (∀ i ∈ b.lineDue, i < 4) ∧ (∀ c ∈ b.playoutDue, c < 16) ∧
    (∀ j ∈ b.txDue, j < 256) ∧ (∀ p ∈ b.suppliedUp, p < 480) ∧ ∀ p ∈ b.suppliedDown, p < 480 := by
  simp [Boundary.inRange, and_assoc]

/-! ### The indices that records name -/

theorem State.Ranged.owner_lt (h : s.Ranged) {p e : Nat} (he : (s.position p).owner = some e) : e < 1024 := by
  obtain ⟨-, -, -, howner, -⟩ := Position.inRange_iff.1 (h.position p)
  exact howner e he

theorem State.Ranged.pending_lt (h : s.Ranged) {p e : Nat} (he : (s.position p).pending = some e) : e < 1024 := by
  obtain ⟨-, -, -, -, hpending, -⟩ := Position.inRange_iff.1 (h.position p)
  exact hpending e he

theorem State.Ranged.home_lt (h : s.Ranged) {e p : Nat} (hp : (s.entry e).home = some p) : p < 480 := by
  obtain ⟨-, -, hhome, -⟩ := Entry.inRange_iff.1 (h.entry e)
  exact hhome p hp

theorem State.Ranged.candidate_lt (h : s.Ranged) {e : Nat} {c : Candidate} (hc : (s.entry e).candidate = some c) :
    c.position < 480 := by
  obtain ⟨-, -, -, hcandidate, -⟩ := Entry.inRange_iff.1 (h.entry e)
  exact hcandidate c hc

theorem State.Ranged.entryGroup_lt (h : s.Ranged) (e : Nat) : (s.entry e).group < 16 := by
  obtain ⟨-, hgroup, -⟩ := Entry.inRange_iff.1 (h.entry e)
  omega

theorem State.Ranged.call_within (h : s.Ranged) {j : Nat} {call : Call} (hcall : (s.context j).call = some call) :
    call.Within :=
  (Context.inRange_iff.1 (h.context j)).1 call hcall

theorem State.Ranged.context_lt (h : s.Ranged) {j : Nat} {call : Call} (hcall : (s.context j).call = some call) :
    j < 256 := by
  refine Table.lt_of_mem_indices h.contexts.wf (Table.mem_indices_of_get (d := {}) fun hreset => ?_)
  rw [State.context, hreset] at hcall
  nomatch hcall

/-! ### What an event keeps -/

/-- What no event of a boundary writes. -/
def State.fixed (s : State) : List Instr × FrameNumber × Settings × Memory × Option PairHalf × Nat × Pulse :=
  (s.pending, s.frameCount, s.settings, s.pattern, s.pairBuffer, s.freeCount, s.pulse)

/-- What an event keeps: what no boundary writes, and the ranges of the rest. -/
structure EventKeeps (s t : State) : Prop where
  fixed : t.fixed = s.fixed
  ranged : s.Ranged → t.Ranged

theorem EventKeeps.refl (s : State) : EventKeeps s s := ⟨rfl, id⟩

theorem EventKeeps.trans (h : EventKeeps s t) (h' : EventKeeps t u) : EventKeeps s u :=
  ⟨h'.fixed.trans h.fixed, h'.ranged ∘ h.ranged⟩

/-! ### Writes of one record -/

/-- A write of a position of the part; that the fields with a range stay is checked by evaluation. -/
theorem EventKeeps.setPosition (h : EventKeeps s t) {p : Nat} {v : Position} (hp : s.Ranged → p < 480)
    (hv : s.Ranged → (t.position p).inRange = true → v.inRange = true := by exact fun _ hpos => hpos) :
    EventKeeps s (t.setPosition p v) :=
  ⟨h.fixed, fun hs =>
    have ht := h.ranged hs
    { ht with positions := ht.positions.set (hp hs) (hv hs (ht.position p)) }⟩

theorem EventKeeps.setEntry (h : EventKeeps s t) {e : Nat} {v : Entry} (he : s.Ranged → e < 1024)
    (hv : s.Ranged → (t.entry e).inRange = true → v.inRange = true := by exact fun _ hentry => hentry) :
    EventKeeps s (t.setEntry e v) :=
  ⟨h.fixed, fun hs =>
    have ht := h.ranged hs
    { ht with entries := ht.entries.set (he hs) (hv hs (ht.entry e)) }⟩

theorem EventKeeps.setGroup (h : EventKeeps s t) {g : Nat} {v : Group} (hg : s.Ranged → g < 16)
    (hv : s.Ranged → (t.group g).inRange = true → v.inRange = true) : EventKeeps s (t.setGroup g v) :=
  ⟨h.fixed, fun hs =>
    have ht := h.ranged hs
    { ht with groups := ht.groups.set (hg hs) (hv hs (ht.group g)) }⟩

theorem EventKeeps.setContext (h : EventKeeps s t) {j : Nat} {v : Context} (hj : s.Ranged → j < 256)
    (hv : s.Ranged → (t.context j).inRange = true → v.inRange = true := by exact fun _ hcontext => hcontext) :
    EventKeeps s (t.setContext j v) :=
  ⟨h.fixed, fun hs =>
    have ht := h.ranged hs
    { ht with contexts := ht.contexts.set (hj hs) (hv hs (ht.context j)) }⟩

theorem EventKeeps.setChannel (h : EventKeeps s t) {c : Nat} {v : Channel} (hc : s.Ranged → c < 16)
    (hv : s.Ranged → (t.channel c).inRange = true → v.inRange = true) : EventKeeps s (t.setChannel c v) :=
  ⟨h.fixed, fun hs =>
    have ht := h.ranged hs
    { ht with channels := ht.channels.set (hc hs) (hv hs (ht.channel c)) }⟩

theorem EventKeeps.setHighway (h : EventKeeps s t) {i : Nat} {v : Highway} (hi : s.Ranged → i < 4)
    (hv : s.Ranged → (t.highway i).inRange = true → v.inRange = true) : EventKeeps s (t.setHighway i v) :=
  ⟨h.fixed, fun hs =>
    have ht := h.ranged hs
    { ht with highways := ht.highways.set (hi hs) (hv hs (ht.highway i)) }⟩

/-! ### Queues and reports -/

theorem saturatingNext_le (limit count : Nat) : saturatingNext limit count ≤ limit := Nat.min_le_left _ _

theorem removeNewest_sublist (level : Nat) (q : List QueuedCell) : (removeNewest level q).Sublist q := by
  induction q with
  | nil => exact .slnil
  | cons c q ih =>
    unfold removeNewest
    split
    · exact ih.cons_cons c
    · split
      · exact List.sublist_cons_self c q
      · exact ih.cons_cons c

theorem EventKeeps.joinCell (h : EventKeeps s t) {level : Nat} (hlevel : level ≤ 6) (cell : OutCell) :
    EventKeeps s (t.joinCell level cell) := by
  refine h.trans ⟨by rw [State.joinCell_frame]; rfl, fun ht => ?_⟩
  have hjoined {q : List QueuedCell} (hq : q.Sublist t.reportQueue) : ∀ c ∈ q ++ [⟨level, cell⟩], c.level ≤ 6 := by
    intro c hc
    rcases List.mem_append.1 hc with hc | hc
    · exact ht.levels c (hq.subset hc)
    · rw [List.mem_singleton.1 hc]; exact hlevel
  unfold State.joinCell
  split
  · exact { ht with levels := hjoined (.refl _) }
  · split
    · exact { ht with levels := hjoined (removeNewest_sublist _ _), lostReports := saturatingNext_le _ _ }
    · exact { ht with lostReports := saturatingNext_le _ _ }

theorem EventKeeps.report (h : EventKeeps s t) (r : Report) : EventKeeps s (t.report r) := by
  unfold State.report
  split
  · next hlevel => exact h.joinCell (Nat.le_of_lt_succ hlevel) _
  · exact h

theorem EventKeeps.accept (h : EventKeeps s t) (tag : Byte) (values : Accepted) : EventKeeps s (t.accept tag values) :=
  h.joinCell (Nat.zero_le _) _

theorem EventKeeps.refuse (h : EventKeeps s t) (tag : Byte) (kind : Nat) (reason : Reason) :
    EventKeeps s (t.refuse tag kind reason) :=
  h.joinCell (Nat.zero_le _) _

/-- A reply joins a queue of fewer than 16 cells, and names the slot of its position. -/
theorem EventKeeps.replyTo (h : EventKeeps s t) {p : Nat} (hp : s.Ranged → p < 480) (r : LineReply) :
    EventKeeps s (t.replyTo p r) := by
  refine h.setHighway (fun hs => Nat.div_lt_of_lt_mul (hp hs)) fun _ hhighway => ?_
  have hslot : p % 120 < 120 := Nat.mod_lt _ (by decide)
  simp only [Highway.inRange, Bool.and_eq_true, decide_eq_true_eq] at hhighway
  obtain ⟨⟨⟨hlength, hcells⟩, hsending⟩, hdrops⟩ := hhighway
  split
  · next hroom =>
    have hcell : (LineCell.reply (p % 120) r).inRange = true := decide_eq_true hslot
    simp [Highway.inRange, hcell, hcells, hsending, hdrops, Nat.succ_le_of_lt hroom]
  · simp [Highway.inRange, hlength, hcells, hsending, saturatingNext_le]

theorem EventKeeps.backoff (h : EventKeeps s t) {p : Nat} (hp : s.Ranged → p < 480) : EventKeeps s (t.backoff p) := by
  refine h.setPosition hp fun _ hpos => ?_
  rw [Position.inRange_iff] at hpos ⊢
  obtain ⟨h1, h2, h3, h4, h5, h6, -, h8⟩ := hpos
  exact ⟨h1, h2, h3, h4, h5, h6, saturatingNext_le _ _, h8⟩

theorem EventKeeps.waitWithBackoff (h : EventKeeps s t) {p : Nat} (hp : s.Ranged → p < 480) :
    EventKeeps s (t.waitWithBackoff p) :=
  (h.backoff hp).replyTo hp _

theorem EventKeeps.rejectWithBackoff (h : EventKeeps s t) {p : Nat} (hp : s.Ranged → p < 480) (reason : RejectReason) :
    EventKeeps s (t.rejectWithBackoff p reason) :=
  (h.backoff hp).replyTo hp _

/-! ### Candidates (R58, R75, R82, R95) -/

theorem VerifyItem.inRange_voidItem (e : Nat) (i : VerifyItem) : (voidItem e i).inRange = i.inRange := by
  unfold voidItem
  split <;> rfl

theorem EventKeeps.voidItems (h : EventKeeps s t) (e : Nat) : EventKeeps s (t.voidItems e) := by
  refine ⟨h.fixed, fun hs => ?_⟩
  have ht := h.ranged hs
  refine { ht with inFlight := ?_, completing := ?_, verifyQueue := ?_ }
  · simpa [State.voidItems, VerifyItem.inRange_voidItem] using ht.inFlight
  · simpa [State.voidItems, VerifyItem.inRange_voidItem] using ht.completing
  · simpa [State.voidItems, VerifyItem.inRange_voidItem] using ht.verifyQueue

/-- A position whose pending field is written. -/
theorem Position.inRange_pending {pos : Position} (h : pos.inRange = true) {pending : Option Nat}
    (hpending : ∀ e ∈ pending, e < 1024) : ({ pos with pending := pending } : Position).inRange = true := by
  rw [Position.inRange_iff] at h ⊢
  obtain ⟨h1, h2, h3, h4, -, h6⟩ := h
  exact ⟨h1, h2, h3, h4, hpending, h6⟩

theorem Position.inRange_owner {pos : Position} (h : pos.inRange = true) {owner : Option Nat}
    (howner : ∀ e ∈ owner, e < 1024) : ({ pos with owner := owner } : Position).inRange = true := by
  rw [Position.inRange_iff] at h ⊢
  obtain ⟨h1, h2, h3, -, h5⟩ := h
  exact ⟨h1, h2, h3, howner, h5⟩

theorem Position.inRange_context {pos : Position} (h : pos.inRange = true) {context : Option Nat}
    (hcontext : ∀ j ∈ context, j < 256) : ({ pos with context := context } : Position).inRange = true := by
  rw [Position.inRange_iff] at h ⊢
  obtain ⟨h1, h2, h3, h4, h5, -, h7⟩ := h
  exact ⟨h1, h2, h3, h4, h5, hcontext, h7⟩

/-- An entry whose candidate is written. -/
theorem Entry.inRange_candidate {e : Entry} (h : e.inRange = true) {candidate : Option Candidate}
    (hcandidate : ∀ c ∈ candidate, c.position < 480) : ({ e with candidate := candidate } : Entry).inRange = true := by
  rw [Entry.inRange_iff] at h ⊢
  obtain ⟨h1, h2, h3, -, h5⟩ := h
  exact ⟨h1, h2, h3, hcandidate, h5⟩

theorem Entry.inRange_home {e : Entry} (h : e.inRange = true) {home : Option Nat}
    (hhome : ∀ p ∈ home, p < 480) : ({ e with home := home } : Entry).inRange = true := by
  rw [Entry.inRange_iff] at h ⊢
  obtain ⟨h1, h2, -, h4⟩ := h
  exact ⟨h1, h2, hhome, h4⟩

theorem Entry.inRange_context {e : Entry} (h : e.inRange = true) {context : Option Nat}
    (hcontext : ∀ j ∈ context, j < 256) : ({ e with context := context } : Entry).inRange = true := by
  rw [Entry.inRange_iff] at h ⊢
  obtain ⟨h1, h2, h3, h4, h5, -⟩ := h
  exact ⟨h1, h2, h3, h4, h5, hcontext⟩

theorem Entry.inRange_failures {e : Entry} (h : e.inRange = true) {failures : Nat} (hfailures : failures ≤ 7) :
    ({ e with failures := failures } : Entry).inRange = true := by
  rw [Entry.inRange_iff] at h ⊢
  obtain ⟨h1, h2, h3, h4, -, h6⟩ := h
  exact ⟨h1, h2, h3, h4, hfailures, h6⟩

theorem EventKeeps.removeCandidate (h : EventKeeps s t) {e p : Nat} (he : s.Ranged → e < 1024)
    (hp : s.Ranged → p < 480) : EventKeeps s (t.removeCandidate e p) :=
  (h.setEntry he fun _ hentry => Entry.inRange_candidate hentry (by simp)).setPosition hp fun _ hpos =>
    Position.inRange_pending hpos nofun

theorem EventKeeps.dropCandidate (h : EventKeeps s t) {e : Nat} (he : s.Ranged → e < 1024) :
    EventKeeps s (t.dropCandidate e) := by
  unfold State.dropCandidate
  cases hc : (t.entry e).candidate with
  | none => exact h
  | some c =>
    have hremoved := h.removeCandidate he fun hs => (h.ranged hs).candidate_lt hc
    dsimp only
    cases c.stage with
    | awaiting _ => exact hremoved
    | queued => exact hremoved.voidItems e

theorem EventKeeps.createCandidate (h : EventKeeps s t) {e p : Nat} (he : s.Ranged → e < 1024)
    (hp : s.Ranged → p < 480) (kind : CandidateKind) : EventKeeps s (t.createCandidate e p kind) := by
  refine ((h.setEntry he fun hs hentry => ?_).setPosition hp fun hs hpos => ?_).replyTo hp _
  · have hcreated {c : Candidate} (hc : c.position = p) :
        ({ t.entry e with candidate := some c } : Entry).inRange = true :=
      Entry.inRange_candidate hentry (by simpa [hc] using hp hs)
    cases kind with
    | first | move | renew => exact hcreated rfl
  · exact Position.inRange_pending hpos (by simpa using he hs)

/-! ### Calls and homes (R36, R63, R120) -/

theorem EventKeeps.unreserve (h : EventKeeps s t) (j : Nat) : EventKeeps s { t with reserved := t.reserved.erase j } :=
  ⟨h.fixed, fun hs =>
    have ht := h.ranged hs
    { ht with reserved := fun k hk => ht.reserved k (List.mem_of_mem_erase hk) }⟩

theorem Group.inRange_inUse {g : Group} (h : g.inRange = true) {n : Nat} (hn : n ≤ 256) :
    ({ g with inUse := n } : Group).inRange = true := by
  simp only [Group.inRange, Bool.and_eq_true, decide_eq_true_eq] at h ⊢
  obtain ⟨⟨⟨⟨h1, -⟩, h3⟩, h4⟩, h5⟩ := h
  exact ⟨⟨⟨⟨h1, hn⟩, h3⟩, h4⟩, h5⟩

theorem Group.inUse_le {g : Group} (h : g.inRange = true) : g.inUse ≤ 256 := by
  simp only [Group.inRange, Bool.and_eq_true, decide_eq_true_eq] at h
  obtain ⟨⟨⟨⟨-, h2⟩, -⟩, -⟩, -⟩ := h
  exact h2

theorem EventKeeps.releaseContext (h : EventKeeps s t) {j : Nat} {call : Call}
    (hcall : (t.context j).call = some call) : EventKeeps s (t.releaseContext j call) := by
  refine (((((h.setContext (fun hs => (h.ranged hs).context_lt hcall) fun _ hcontext => ?_).setGroup
    (fun hs => (h.ranged hs).entryGroup_lt _) fun _ hgroup => ?_).setPosition
    (fun hs => ((h.ranged hs).call_within hcall).position) fun _ hpos => ?_).setEntry
    (fun hs => ((h.ranged hs).call_within hcall).entry) fun _ hentry => ?_).unreserve j)
  · rw [Context.inRange_iff] at hcontext ⊢
    obtain ⟨-, hmisses, hsync, hslips, -⟩ := hcontext
    exact ⟨nofun, hmisses, hsync, hslips, Nat.zero_le _⟩
  · exact Group.inRange_inUse hgroup ((Nat.sub_le _ _).trans (Group.inUse_le hgroup))
  · exact Position.inRange_context hpos nofun
  · exact Entry.inRange_context hentry nofun

theorem EventKeeps.closeContext (h : EventKeeps s t) (j : Nat) (cause : CloseCause) :
    EventKeeps s (t.closeContext j cause) := by
  unfold State.closeContext
  cases hcall : (t.context j).call with
  | none => exact h
  | some call => exact (h.releaseContext hcall).report _

theorem EventKeeps.closeContextOf (h : EventKeeps s t) (e : Nat) (cause : CloseCause) :
    EventKeeps s (t.closeContextOf e cause) := by
  unfold State.closeContextOf
  cases (t.entry e).context with
  | none => exact h
  | some j => exact h.closeContext j cause

theorem EventKeeps.unbind (h : EventKeeps s t) {e : Nat} (he : s.Ranged → e < 1024) : EventKeeps s (t.unbind e) := by
  have hleft : EventKeeps s (t.setEntry e { t.entry e with home := none, refresh := none, rechallenge := none }) :=
    h.setEntry he fun _ hentry => Entry.inRange_home hentry nofun
  unfold State.unbind
  dsimp only
  cases hhome : (t.entry e).home with
  | none => exact hleft
  | some p =>
    exact hleft.setPosition (fun hs => (h.ranged hs).home_lt hhome) fun _ hpos => Position.inRange_owner hpos nofun

theorem EventKeeps.bind (h : EventKeeps s t) {e p : Nat} (he : s.Ranged → e < 1024) (hp : s.Ranged → p < 480) :
    EventKeeps s (t.bind e p) := by
  refine (h.setEntry he fun hs hentry => ?_).setPosition hp fun hs hpos => ?_
  · exact Entry.inRange_home (e := t.entry e) hentry (by simpa using hp hs)
  · exact Position.inRange_owner hpos (by simpa using he hs)

theorem EventKeeps.setEntryState (h : EventKeeps s t) {e : Nat} (he : s.Ranged → e < 1024) (state : EntryState) :
    EventKeeps s (t.setEntryState e state) :=
  h.setEntry he

theorem EventKeeps.endAdmission (h : EventKeeps s t) {e : Nat} (he : s.Ranged → e < 1024) (cause : CloseCause)
    (state : EntryState) : EventKeeps s (t.endAdmission e cause state) :=
  ((h.closeContextOf e cause).unbind he).setEntryState he state

end Sys2Proof.Machine
end

section
/-! The ranges of the fields along a call and under the events of a boundary: each is an `EventKeeps`. -/

namespace Sys2Proof.Machine

variable {s t u : State}

/-! ### The transmit side (R130 to R134) -/

/-- A context that keeps its misses, slips and window, and whose call has the ends of one of the part. -/
theorem Context.inRange_call {c : Context} (h : c.inRange = true) {call : Call} (hcall : call.Within) :
    ({ c with call := some call } : Context).inRange = true := by
  rw [Context.inRange_iff] at h ⊢
  obtain ⟨-, hrest⟩ := h
  exact ⟨by simpa using hcall, hrest⟩

/-- A call whose keys are written keeps its ends. -/
theorem Call.Within.withKeys {call : Call} (h : call.Within) (tx rx : Key) :
    ({ call with txKey := tx, rxKey := rx } : Call).Within := ⟨h.position, h.entry⟩

theorem EventKeeps.reportStagedTaken (h : EventKeeps s t) (j p : Nat) (g : Generation) (otherTaken : Bool) :
    EventKeeps s (t.reportStagedTaken j p g otherTaken) := by
  unfold State.reportStagedTaken
  split
  · exact h.report _
  · exact h

theorem EventKeeps.txSkip (h : EventKeeps s t) {j : Nat} (hj : s.Ranged → j < 256) (call : Call) (reason : SkipReason) :
    EventKeeps s (t.txSkip j call reason) := by
  unfold State.txSkip
  dsimp only
  split
  · exact h
  · exact (h.setContext hj).report _

theorem EventKeeps.rekeyDecision (h : EventKeeps s t) {j : Nat} {call : Call} (hj : s.Ranged → j < 256)
    (hcall : s.Ranged → call.Within) : EventKeeps s (t.rekeyDecision j call) := by
  unfold State.rekeyDecision
  cases (t.context j).staged with
  | none => exact h.txSkip hj _ _
  | some k =>
    dsimp only
    split
    · exact h.txSkip hj _ _
    · refine ((h.setContext hj fun hs hcontext => ?_).report _).reportStagedTaken _ _ _ _
      exact Context.inRange_call (c := t.context j) hcontext ((hcall hs).withKeys _ _)

theorem EventKeeps.txAdvance (h : EventKeeps s t) (j : Nat) : EventKeeps s (t.txAdvance j) := by
  unfold State.txAdvance
  cases hcall : (t.context j).call with
  | none => exact h
  | some call =>
    have hj (hs : s.Ranged) : j < 256 := (h.ranged hs).context_lt hcall
    have hadvanced : EventKeeps s (t.setContext j { t.context j with txFrame := (t.context j).txFrame + 1 }) :=
      h.setContext hj
    unfold State.txStep
    dsimp only
    split
    · exact hadvanced.rekeyDecision hj fun hs => (h.ranged hs).call_within hcall
    · exact hadvanced

/-! ### The receive side (R142 to R150) -/

theorem EventKeeps.enterKeyWait (h : EventKeeps s t) {j : Nat} (hj : s.Ranged → j < 256) (call : Call)
    (before : SyncState) (cause : KeyMissCause) (g : Generation) (hmisses : s.Ranged → (t.context j).misses ≤ 6) :
    EventKeeps s (t.enterKeyWait j call before cause g) := by
  have hwaiting : EventKeeps s (t.setContext j { t.context j with sync := .keyWait }) := h.setContext hj fun hs hcontext => by
    rw [Context.inRange_iff] at hcontext ⊢
    obtain ⟨h1, h2, -, h4⟩ := hcontext
    exact ⟨h1, h2, .inr (hmisses hs), h4⟩
  unfold State.enterKeyWait
  dsimp only
  split
  · exact hwaiting
  · exact hwaiting.report _

/-- A generation check leaves HUNT, at a context that has missed at most six bursts (R148, R149). -/
theorem EventKeeps.generationCheck (h : EventKeeps s t) {j : Nat} {call : Call} (hj : s.Ranged → j < 256)
    (hcall : s.Ranged → call.Within) (before : SyncState) (g : Generation)
    (hmisses : s.Ranged → (t.context j).misses ≤ 6) : EventKeeps s (t.generationCheck j call before g) := by
  have haligned (c : Context) (hs : s.Ranged) (hc : c.inRange = true) (hm : c.misses ≤ 6) :
      ({ c with sync := .aligned } : Context).inRange = true := by
    rw [Context.inRange_iff] at hc ⊢
    obtain ⟨h1, h2, -, h4⟩ := hc
    exact ⟨h1, h2, .inr hm, h4⟩
  unfold State.generationCheck
  dsimp only
  split
  · exact h.setContext hj fun hs hcontext => haligned _ hs hcontext (hmisses hs)
  · split
    · split
      · refine ((h.setContext hj fun hs hcontext => ?_).report _).reportStagedTaken _ _ _ _
        exact haligned { t.context j with call := some { call with rxKey := _ } } hs
          (Context.inRange_call hcontext ((hcall hs).withKeys _ _)) (hmisses hs)
      · exact h.enterKeyWait hj _ _ _ _ hmisses
    · exact h.enterKeyWait hj _ _ _ _ hmisses

theorem Context.inRange_recognised {c : Context} (h : c.inRange = true) (b : FoundBurst) :
    (c.recognised b).inRange = true := by
  rw [Context.inRange_iff] at h ⊢
  obtain ⟨hcall, -, -, hslips, hwindow⟩ := h
  exact ⟨hcall, Nat.zero_le _, .inr (Nat.zero_le _), hslips, by simpa [Context.recognised, markAll] using hwindow⟩

theorem Context.inRange_slipped {c : Context} (h : c.inRange = true) : c.slipped.inRange = true := by
  rw [Context.inRange_iff] at h ⊢
  obtain ⟨h1, h2, h3, -, h5⟩ := h
  exact ⟨h1, h2, h3, saturatingNext_le _ _, h5⟩

theorem EventKeeps.recognise (h : EventKeeps s t) {j : Nat} {call : Call} (hj : s.Ranged → j < 256)
    (hcall : s.Ranged → call.Within) (b : FoundBurst) : EventKeeps s (t.recognise j call b) := by
  have hcheck {v : Context} (hv : EventKeeps s (t.setContext j v)) (hmisses : v.misses = 0) :
      EventKeeps s ((t.setContext j v).generationCheck j call (t.context j).sync b.generation) :=
    hv.generationCheck hj hcall _ _ fun _ => by rw [State.context_setContext_self, hmisses]; decide
  have hreport {v : Context} (hv : EventKeeps s (t.setContext j v)) (hmisses : v.misses = 0) (r : Report) :
      EventKeeps s (((t.setContext j v).report r).generationCheck j call (t.context j).sync b.generation) :=
    (hv.report r).generationCheck hj hcall _ _ fun _ => by
      rw [State.context_report, State.context_setContext_self, hmisses]; decide
  have hrecognised : EventKeeps s (t.setContext j ((t.context j).recognised b)) :=
    h.setContext hj fun _ hcontext => Context.inRange_recognised hcontext b
  unfold State.recognise
  dsimp only
  split
  · exact hreport hrecognised rfl _
  · exact hcheck hrecognised rfl
  · exact hcheck hrecognised rfl
  · split
    · exact hcheck hrecognised rfl
    · exact hreport (h.setContext hj fun _ hcontext => Context.inRange_slipped (Context.inRange_recognised hcontext b)) rfl _

theorem Settings.missLimit_le {x : Settings} (h : x.inRange = true) : x.missLimit ≤ 7 := by
  simp only [Settings.inRange, Bool.and_eq_true, decide_eq_true_eq] at h
  obtain ⟨⟨⟨⟨⟨⟨⟨-, hmiss⟩, -⟩, -⟩, -⟩, -⟩, -⟩, -⟩ := h
  exact hmiss.2

/-- A miss outside HUNT is at most the seventh, and below the Miss Limit at most the sixth (R148). -/
theorem EventKeeps.countMiss (h : EventKeeps s t) {j : Nat} (hj : s.Ranged → j < 256) (call : Call)
    (hsync : (t.context j).sync ≠ .hunt) : EventKeeps s (t.countMiss j call) := by
  unfold State.countMiss
  dsimp only
  split
  · next hbelow =>
    refine h.setContext hj fun hs hcontext => ?_
    have hlimit := Settings.missLimit_le (h.ranged hs).settings
    rw [Context.inRange_iff] at hcontext ⊢
    obtain ⟨h1, -, -, h4⟩ := hcontext
    exact ⟨h1, by dsimp only; omega, .inr (by dsimp only; omega), h4⟩
  · refine (h.setContext hj fun _ hcontext => ?_).report _
    rw [Context.inRange_iff] at hcontext ⊢
    obtain ⟨h1, -, h3, h4⟩ := hcontext
    have hmisses := h3.resolve_left hsync
    exact ⟨h1, by dsimp only; omega, .inl rfl, h4⟩

theorem windowAfter_length_le {window : List WindowCode} (h : window.length ≤ 8) (code : Byte) :
    (windowAfter window code).length ≤ 8 := by
  unfold windowAfter
  split <;> simp <;> omega

theorem Context.inRange_numbered {c : Context} (h : c.inRange = true) : c.numbered.inRange = true := by
  unfold Context.numbered
  split <;> exact h

theorem EventKeeps.receive (h : EventKeeps s t) {j : Nat} {call : Call} (hj : s.Ranged → j < 256)
    (hcall : s.Ranged → call.Within) (code : Byte) : EventKeeps s (t.receive j call code) := by
  have hjoined : EventKeeps s (t.setContext j
      { (t.context j).numbered with window := windowAfter (t.context j).numbered.window code }) := by
    refine h.setContext hj fun _ hcontext => ?_
    have hnumbered := Context.inRange_numbered hcontext
    rw [Context.inRange_iff] at hnumbered ⊢
    obtain ⟨h1, h2, h3, h4, hwindow⟩ := hnumbered
    exact ⟨h1, h2, h3, h4, windowAfter_length_le hwindow code⟩
  unfold State.receive State.decideArrival
  dsimp only
  split
  · exact hjoined.recognise hj hcall _
  · split
    · next hplace =>
      refine hjoined.countMiss hj call ?_
      simp only [expectedPlace, Bool.and_eq_true, decide_eq_true_eq] at hplace
      exact hplace.1
    · exact hjoined

/-! ### Arrivals (R34, R39 to R46) -/

theorem EventKeeps.toSwitch (h : EventKeeps s t) {p : Nat} (hp : s.Ranged → p < 480) (code : Byte) :
    EventKeeps s (t.toSwitch p code) := h.setPosition hp

theorem EventKeeps.toLine (h : EventKeeps s t) {p : Nat} (hp : s.Ranged → p < 480) (code : Byte) :
    EventKeeps s (t.toLine p code) := h.setPosition hp

theorem clampsAfter_le {count : Nat} (h : count ≤ 65535) (clamped : Bool) : clampsAfter count clamped ≤ 65535 := by
  unfold clampsAfter
  split
  · exact saturatingNext_le _ _
  · exact h

theorem EventKeeps.countUpClamp (h : EventKeeps s t) {p : Nat} (hp : s.Ranged → p < 480) (code : Byte) :
    EventKeeps s (t.countUpClamp p code) := by
  refine h.setPosition hp fun _ hpos => ?_
  rw [Position.inRange_iff] at hpos ⊢
  obtain ⟨h1, h2, h3, h4, h5, h6, h7, hup, hdown⟩ := hpos
  exact ⟨h1, h2, h3, h4, h5, h6, h7, clampsAfter_le hup _, hdown⟩

theorem EventKeeps.countDownClamp (h : EventKeeps s t) {p : Nat} (hp : s.Ranged → p < 480) (clamped : Bool) :
    EventKeeps s (t.countDownClamp p clamped) := by
  refine h.setPosition hp fun _ hpos => ?_
  rw [Position.inRange_iff] at hpos ⊢
  obtain ⟨h1, h2, h3, h4, h5, h6, h7, hup, hdown⟩ := hpos
  exact ⟨h1, h2, h3, h4, h5, h6, h7, hup, clampsAfter_le hdown _⟩

theorem EventKeeps.upstream (h : EventKeeps s t) {p : Nat} (hp : s.Ranged → p < 480) (code : Byte) :
    EventKeeps s (t.upstream p code) := by
  unfold State.upstream
  cases t.effective p with
  | lineLoop => exact (h.toLine hp code).toSwitch hp 255
  | switchLoop => exact h.toLine hp 255
  | pending | mute => exact h.toSwitch hp 255
  | clear | tone => exact (h.countUpClamp hp code).toSwitch hp _
  | scrambled shape j call =>
    cases shape with
    | mute => exact h.toSwitch hp _
    | clear | tone => exact (h.countUpClamp hp code).toSwitch hp _

theorem EventKeeps.downstream (h : EventKeeps s t) {p : Nat} (hp : s.Ranged → p < 480) (code looped : Byte) :
    EventKeeps s (t.downstream p code looped) := by
  unfold State.downstream
  cases heff : t.effective p with
  | lineLoop => exact h
  | switchLoop => exact h.toSwitch hp code
  | pending | mute | tone => exact h.toLine hp _
  | clear => exact (h.countDownClamp hp _).toLine hp _
  | scrambled shape j call =>
    have hcall := State.call_of_effective heff
    exact ((h.countDownClamp hp _).setPosition hp).receive (fun hs => (h.ranged hs).context_lt hcall)
      (fun hs => (h.ranged hs).call_within hcall) _

theorem Position.inRange_driveSwitch (pos : Position) : pos.driveSwitch.inRange = pos.inRange := by
  unfold Position.driveSwitch
  split <;> rfl

theorem Position.inRange_driveLine (pos : Position) : pos.driveLine.inRange = pos.inRange := by
  unfold Position.driveLine
  split <;> rfl

theorem EventKeeps.driveBoth (h : EventKeeps s t) {p : Nat} (hp : s.Ranged → p < 480) : EventKeeps s (t.driveBoth p) :=
  h.setPosition hp fun _ hpos => by rwa [Position.inRange_driveLine, Position.inRange_driveSwitch]

/-! ### The events of a boundary (assumption 2) -/

/-- An event is struck off those due. -/
theorem EventKeeps.strike (h : EventKeeps s t) {b : Boundary} (hb : t.boundary.inRange = true → b.inRange = true) :
    EventKeeps s { t with boundary := b } :=
  ⟨h.fixed, fun hs =>
    have ht := h.ranged hs
    { ht with boundary := hb ht.boundary }⟩

theorem EventKeeps.supplyUp (h : EventKeeps s t) (p : Nat) : EventKeeps s (t.supplyUp p) := by
  unfold State.supplyUp
  split
  · next hdue =>
    have hp (hs : s.Ranged) : p < 480 := by
      obtain ⟨-, -, -, hup, -⟩ := Boundary.inRange_iff.1 (h.ranged hs).boundary
      exact hup p hdue
    refine (h.strike fun hb => ?_).upstream hp 255
    rw [Boundary.inRange_iff] at hb ⊢
    obtain ⟨h1, h2, h3, hup, h5⟩ := hb
    exact ⟨h1, h2, h3, fun q hq => hup q (List.mem_of_mem_erase hq), h5⟩
  · exact h

theorem EventKeeps.supplyDown (h : EventKeeps s t) (p : Nat) : EventKeeps s (t.supplyDown p) := by
  unfold State.supplyDown
  split
  · next hdue =>
    have hp (hs : s.Ranged) : p < 480 := by
      obtain ⟨-, -, -, -, hdown⟩ := Boundary.inRange_iff.1 (h.ranged hs).boundary
      exact hdown p hdue
    refine (h.strike fun hb => ?_).downstream hp 255 255
    rw [Boundary.inRange_iff] at hb ⊢
    obtain ⟨h1, h2, h3, h4, hdown⟩ := hb
    exact ⟨h1, h2, h3, h4, fun q hq => hdown q (List.mem_of_mem_erase hq)⟩
  · exact h

theorem EventKeeps.takeTx (h : EventKeeps s t) (j : Nat) : EventKeeps s (t.takeTx j) := by
  unfold State.takeTx
  split
  · have hstruck : EventKeeps s { t with boundary := { t.boundary with txDue := t.boundary.txDue.erase j } } := by
      refine h.strike fun hb => ?_
      rw [Boundary.inRange_iff] at hb ⊢
      obtain ⟨h1, h2, htx, h4⟩ := hb
      exact ⟨h1, h2, fun k hk => htx k (List.mem_of_mem_erase hk), h4⟩
    dsimp only
    split
    · exact hstruck
    · exact (hstruck.supplyUp _).txAdvance j
  · exact h

theorem Channel.inRange_iff {c : Channel} : c.inRange = true ↔ c.start ≤ 8191 ∧ 1 ≤ c.length ∧
    c.start + c.length ≤ 8192 ∧ c.start ≤ c.position ∧ c.position ≤ c.start + c.length - 1 ∧
      repeatsInRange c.status c.repeats = true := by
  simp [Channel.inRange, and_assoc]

/-- A channel back at its start, with what is left of its repeats. -/
theorem Channel.inRange_again {c : Channel} (h : c.inRange = true) {status : PlayoutStatus} {repeats : Repeats}
    (hrepeats : repeatsInRange status repeats = true) :
    ({ c with position := c.start, repeats := repeats, status := status } : Channel).inRange = true := by
  rw [Channel.inRange_iff] at h ⊢
  obtain ⟨hstart, hlength, hend, -⟩ := h
  exact ⟨hstart, hlength, hend, le_rfl, by dsimp only; omega, hrepeats⟩

/-- A RUNNING channel keeps its ranges as it advances, and a count that runs out is left at 0 (R157, R160). -/
theorem Channel.inRange_advanced {c : Channel} (h : c.inRange = true) (hrunning : c.status = .running) :
    c.advanced.inRange = true := by
  have hranges := Channel.inRange_iff.1 h
  obtain ⟨hstart, hlength, hend, hfrom, -, hrepeats⟩ := hranges
  unfold Channel.advanced Channel.wrap
  split
  · next hwithin =>
    exact Channel.inRange_iff.2 ⟨hstart, hlength, hend, by dsimp only; omega, by dsimp only; omega, hrepeats⟩
  · split
    · next hendless => exact Channel.inRange_again h hrepeats
    · next n hcount =>
      rw [hrunning, hcount] at hrepeats
      have hleft := of_decide_eq_true hrepeats
      refine Channel.inRange_again h ?_
      split
      · exact decide_eq_true (by omega)
      · rw [hrunning]
        exact decide_eq_true (by omega)

theorem EventKeeps.playoutStep (h : EventKeeps s t) {c : Nat} (hc : s.Ranged → c < 16) :
    EventKeeps s (t.playoutStep c) := by
  unfold State.playoutStep
  dsimp only
  cases hstatus : (t.channel c).status with
  | stopped | countDone => exact h
  | running =>
    have hadvanced : EventKeeps s (t.setChannel c (t.channel c).advanced) :=
      h.setChannel hc fun _ hchannel => Channel.inRange_advanced hchannel hstatus
    dsimp only
    split
    · exact hadvanced.report _
    · exact hadvanced

theorem EventKeeps.takePlayout (h : EventKeeps s t) (c : Nat) : EventKeeps s (t.takePlayout c) := by
  unfold State.takePlayout
  split
  · next hdue =>
    have hc (hs : s.Ranged) : c < 16 := by
      obtain ⟨-, hplayout, -⟩ := Boundary.inRange_iff.1 (h.ranged hs).boundary
      exact hplayout c hdue
    refine (h.strike fun hb => ?_).playoutStep hc
    rw [Boundary.inRange_iff] at hb ⊢
    obtain ⟨h1, hplayout, h3⟩ := hb
    exact ⟨h1, fun k hk => hplayout k (List.mem_of_mem_erase hk), h3⟩
  · exact h

theorem Highway.inRange_takeCell {x : Highway} (h : x.inRange = true) (cut : Bool) : (x.takeCell cut).inRange = true := by
  unfold Highway.takeCell
  split
  · exact h
  · simp only [Highway.inRange, Bool.and_eq_true, decide_eq_true_eq] at h ⊢
    obtain ⟨⟨⟨hlength, hcells⟩, -⟩, hdrops⟩ := h
    split
    · exact ⟨⟨⟨hlength, hcells⟩, rfl⟩, hdrops⟩
    · next c rest hqueue =>
      rw [hqueue, List.all_cons, Bool.and_eq_true] at hcells
      rw [hqueue, List.length_cons] at hlength
      exact ⟨⟨⟨by dsimp only; omega, hcells.2⟩, hcells.1⟩, hdrops⟩

theorem EventKeeps.sendLine (h : EventKeeps s t) {i : Nat} (hi : s.Ranged → i < 4) (cut : Bool) :
    EventKeeps s (t.sendLine i cut) :=
  h.setHighway hi fun _ hhighway => Highway.inRange_takeCell hhighway cut

theorem EventKeeps.takeLineCell (h : EventKeeps s t) (i : Nat) : EventKeeps s (t.takeLineCell i) := by
  unfold State.takeLineCell
  split
  · next hdue =>
    have hi (hs : s.Ranged) : i < 4 := by
      obtain ⟨hline, -⟩ := Boundary.inRange_iff.1 (h.ranged hs).boundary
      exact hline i hdue
    refine (h.strike fun hb => ?_).sendLine hi _
    rw [Boundary.inRange_iff] at hb ⊢
    obtain ⟨hline, h2⟩ := hb
    exact ⟨fun k hk => hline k (List.mem_of_mem_erase hk), h2⟩
  · exact h

theorem selectReport_subset {q rest : List QueuedCell} {cell : OutCell} (h : selectReport q = some (cell, rest)) :
    rest ⊆ q := by
  simp only [selectReport, Option.map_eq_some_iff, Prod.mk.injEq] at h
  obtain ⟨c, -, -, rfl⟩ := h
  exact List.eraseP_subset

theorem EventKeeps.sendReport (h : EventKeeps s t) (cut : Bool) : EventKeeps s (t.sendReport cut) := by
  refine h.trans ⟨?_, fun ht => ?_⟩
  · unfold State.sendReport
    split
    · rfl
    · split <;> rfl
  · unfold State.sendReport
    split
    · exact ht
    · split
      · exact { ht with }
      · next hselect => exact { ht with levels := fun c hc => ht.levels c (selectReport_subset hselect hc) }

theorem EventKeeps.takeReport (h : EventKeeps s t) : EventKeeps s t.takeReport := by
  unfold State.takeReport
  split
  · exact (h.strike (b := { t.boundary with reportDue := false }) fun hb => hb).sendReport _
  · exact h

theorem EventKeeps.takeSecond (h : EventKeeps s t) : EventKeeps s t.takeSecond := by
  unfold State.takeSecond
  split
  · exact ⟨h.fixed, fun hs =>
      have ht := h.ranged hs
      { ht with prescale := Nat.zero_le _ }⟩
  · exact h

theorem EventKeeps.takeVerifications (h : EventKeeps s t) : EventKeeps s t.takeVerifications := by
  unfold State.takeVerifications
  split
  · refine ⟨h.fixed, fun hs => ?_⟩
    have ht := h.ranged hs
    refine { ht with inFlight := ?_, verifyQueue := fun i hi => ht.verifyQueue i (List.mem_of_mem_drop hi) }
    intro f hf
    rcases List.mem_append.1 hf with hf | hf
    · exact ht.inFlight f hf
    · obtain ⟨i, hi, rfl⟩ := List.mem_map.1 hf
      exact ht.verifyQueue i (List.mem_of_mem_take hi)
  · exact h

end Sys2Proof.Machine
end

section
/-! The ranges of the fields under the deadlines, the outcomes of a verification and all that a boundary brings about. -/

namespace Sys2Proof.Machine

variable {s t u : State}

/-! ### The outcomes of a verification (R96 to R105) -/

theorem EventKeeps.welcome (h : EventKeeps s t) {e p : Nat} (he : s.Ranged → e < 1024) (hp : s.Ranged → p < 480)
    (renew : Bool) : EventKeeps s (t.welcome e p renew) := by
  refine ((((h.setEntry he).setEntry he fun _ hentry => ?_).setPosition hp fun _ hpos => ?_).replyTo hp _).report _
  · exact Entry.inRange_failures hentry (Nat.zero_le _)
  · rw [Position.inRange_iff] at hpos ⊢
    obtain ⟨h1, h2, h3, h4, h5, h6, -, h8⟩ := hpos
    exact ⟨h1, h2, h3, h4, h5, h6, Nat.zero_le _, h8⟩

theorem EventKeeps.displaceOwner (h : EventKeeps s t) (p e : Nat) : EventKeeps s (t.displaceOwner p e) := by
  unfold State.displaceOwner
  cases howner : (t.position p).owner with
  | none => exact h
  | some x =>
    have hx (hs : s.Ranged) : x < 1024 := (h.ranged hs).owner_lt howner
    dsimp only
    split
    · exact h
    · exact ((h.dropCandidate hx).endAdmission hx _ _).report _

theorem EventKeeps.leaveHome (h : EventKeeps s t) {e : Nat} (he : s.Ranged → e < 1024) (p : Nat) :
    EventKeeps s (t.leaveHome e p) := by
  unfold State.leaveHome
  cases hhome : (t.entry e).home with
  | none => exact h
  | some home =>
    exact (((h.closeContextOf e _).unbind he).replyTo (fun hs => (h.ranged hs).home_lt hhome) _).report _

theorem EventKeeps.applyMatch (h : EventKeeps s t) {e p : Nat} (he : s.Ranged → e < 1024) (hp : s.Ranged → p < 480)
    (kind : CandidateKind) : EventKeeps s (t.applyMatch e p kind) := by
  cases kind with
  | first => exact ((h.displaceOwner p e).bind he hp).welcome he hp false
  | move => exact (((h.leaveHome he p).displaceOwner p e).bind he hp).welcome he hp false
  | renew => exact h.welcome he hp true

theorem EventKeeps.barForFailures (h : EventKeeps s t) {e : Nat} (he : s.Ranged → e < 1024) (p : Nat)
    (kind : CandidateKind) : EventKeeps s (t.barForFailures e p kind) := by
  unfold State.barForFailures
  split
  · next hhome =>
    exact ((h.endAdmission he _ _).replyTo (fun hs => (h.ranged hs).home_lt hhome) _).report _
  · exact (h.endAdmission he _ _).report _
  · exact (h.setEntryState he _).report _

theorem EventKeeps.endRenewal (h : EventKeeps s t) {e : Nat} (he : s.Ranged → e < 1024) (kind : CandidateKind) :
    EventKeeps s (t.endRenewal e kind) := by
  cases kind with
  | first | move => exact h
  | renew => exact h.endAdmission he _ _

theorem EventKeeps.applyVerdict (h : EventKeeps s t) {e p : Nat} (he : s.Ranged → e < 1024) (hp : s.Ranged → p < 480)
    (verdict : Verdict) (kind : CandidateKind) : EventKeeps s (t.applyVerdict verdict e p kind) := by
  cases verdict with
  | matched => exact h.applyMatch he hp kind
  | mismatch =>
    have hcounted : EventKeeps s (t.setEntry e { t.entry e with failures := saturatingNext 7 (t.entry e).failures }) :=
      h.setEntry he fun _ hentry => Entry.inRange_failures hentry (saturatingNext_le _ _)
    simp only [State.applyVerdict, State.applyMismatch]
    split
    · exact ((hcounted.barForFailures he p kind).rejectWithBackoff hp _).report _
    · exact ((hcounted.endRenewal he kind).rejectWithBackoff hp _).report _
  | notReady => exact ((h.endRenewal he kind).replyTo hp _).report _

theorem VerifyItem.inRange_iff {i : VerifyItem} : i.inRange = true ↔ i.entry < 1024 ∧ i.position < 480 := by
  simp [VerifyItem.inRange]

theorem EventKeeps.completeItem (h : EventKeeps s t) {f : FlightItem} (hf : s.Ranged → f.item.inRange = true) :
    EventKeeps s (t.completeItem f) := by
  have he (hs : s.Ranged) := (VerifyItem.inRange_iff.1 (hf hs)).1
  have hp (hs : s.Ranged) := (VerifyItem.inRange_iff.1 (hf hs)).2
  unfold State.completeItem
  split
  · exact h
  · split
    · exact h
    · exact (h.removeCandidate he hp).applyVerdict he hp _ _

theorem EventKeeps.completeItems (n : Nat) (h : EventKeeps s t) : EventKeeps s (State.completeItems n t) := by
  induction n generalizing t with
  | zero => exact h
  | succ n ih =>
    unfold State.completeItems
    split
    · exact h
    · next f rest hcompleting =>
      have hrest : EventKeeps s { t with completing := rest } := ⟨h.fixed, fun hs =>
        have ht := h.ranged hs
        { ht with completing := fun g hg => ht.completing g (by rw [hcompleting]; exact List.mem_cons_of_mem _ hg) }⟩
      exact ih (hrest.completeItem fun hs => (h.ranged hs).completing f (by rw [hcompleting]; exact List.mem_cons_self ..))

theorem EventKeeps.complete (h : EventKeeps s t) : EventKeeps s t.complete := by
  unfold State.complete
  split
  · exact h
  · exact h.takeSecond.completeItems _

/-! ### The deadlines (R77, R86, R87, R108, R110) -/

/-- A position that is not as reset is one of the part. -/
theorem State.Ranged.position_lt (h : s.Ranged) {p : Nat} (hp : s.position p ≠ {}) : p < 480 :=
  Table.lt_of_mem_indices h.positions.wf (Table.mem_indices_of_get hp)

theorem State.Ranged.entry_lt (h : s.Ranged) {e : Nat} (he : s.entry e ≠ {}) : e < 1024 :=
  Table.lt_of_mem_indices h.entries.wf (Table.mem_indices_of_get he)

theorem EventKeeps.takeHoldOff (h : EventKeeps s t) (p : Nat) : EventKeeps s (t.takeHoldOff p) := by
  unfold State.takeHoldOff
  split
  · next hdue => exact h.setPosition fun hs => (h.ranged hs).position_lt fun hreset => by rw [hreset] at hdue; nomatch hdue
  · exact h

theorem EventKeeps.takeAnswerDeadline (h : EventKeeps s t) (e : Nat) : EventKeeps s (t.takeAnswerDeadline e) := by
  unfold State.takeAnswerDeadline State.answerTimeout
  split
  · exact h
  · next c hc =>
    have he (hs : s.Ranged) : e < 1024 := (h.ranged hs).entry_lt fun hreset => by rw [hreset] at hc; nomatch hc
    have hp (hs : s.Ranged) : c.position < 480 := (h.ranged hs).candidate_lt hc
    have hremoved := h.removeCandidate he hp
    split
    · dsimp only
      split
      · exact hremoved.replyTo hp _
      · exact hremoved.replyTo hp _
      · exact ((hremoved.endAdmission he _ _).replyTo hp _).report _
    · exact h

theorem EventKeeps.takeRefresh (h : EventKeeps s t) (e : Nat) : EventKeeps s (t.takeRefresh e) := by
  unfold State.takeRefresh State.lapse
  split
  · next hdue =>
    have he (hs : s.Ranged) : e < 1024 := (h.ranged hs).entry_lt fun hreset => by rw [hreset] at hdue; nomatch hdue
    have hended := (h.dropCandidate he).endAdmission he .lapsed .absent
    cases hhome : (t.entry e).home with
    | none => exact hended
    | some p => exact (hended.replyTo (fun hs => (h.ranged hs).home_lt hhome) _).report _
  · exact h

theorem EventKeeps.takeRechallenge (h : EventKeeps s t) (e : Nat) : EventKeeps s (t.takeRechallenge e) := by
  unfold State.takeRechallenge State.rechallengeAt
  split
  · next hdue =>
    have he (hs : s.Ranged) : e < 1024 := (h.ranged hs).entry_lt fun hreset => by rw [hreset] at hdue; nomatch hdue
    split
    · exact h
    · next p hhome =>
      split
      · exact h.setEntry he
      · exact (h.setEntry he).createCandidate he (fun hs => (h.ranged hs).home_lt hhome) .renew
  · exact h

/-- All that a boundary brings about. -/
theorem EventKeeps.finishBoundary (s : State) : EventKeeps s s.finishBoundary :=
  State.finishBoundary_keeps (P := EventKeeps s) (fun _ p h => h.supplyUp p) (fun _ p h => h.supplyDown p)
    (fun _ h => h.takeSecond) (fun _ h => h.complete) (fun _ h => h.takeVerifications) (fun _ p h => h.takeHoldOff p)
    (fun _ e h => h.takeAnswerDeadline e) (fun _ e h => h.takeRefresh e) (fun _ e h => h.takeRechallenge e)
    (fun _ j h => h.takeTx j) (fun _ c h => h.takePlayout c) (fun _ i h => h.takeLineCell i) (fun _ h => h.takeReport)
    (.refl s)

/-! ### Carried arrivals and driven slots (R1, R34) -/

theorem EventKeeps.supplyBoth (h : EventKeeps s t) (p : Nat) : EventKeeps s (t.supplyBoth p) :=
  (h.supplyUp p).supplyDown p

theorem EventKeeps.advanceTxAt (h : EventKeeps s t) (p : Nat) : EventKeeps s (t.advanceTxAt p) := by
  rcases t.advanceTxAt_cases p with heq | ⟨_, j, _, _, heq⟩
  · rw [heq]; exact h
  · rw [heq]; exact h.takeTx j

theorem EventKeeps.beforeDownstream (h : EventKeeps s t) : EventKeeps s t.beforeDownstream :=
  (State.forEach_keeps (P := EventKeeps s) (fun _ c hu => hu.takePlayout c) _ h).takeReport

/-- An arrival is marked as processed (R35). -/
theorem EventKeeps.markUp (h : EventKeeps s t) {p : Nat} (hp : s.Ranged → p < 480) :
    EventKeeps s (t.setPosition p { t.position p with upTaken := true }) := h.setPosition hp

theorem EventKeeps.markDown (h : EventKeeps s t) {p : Nat} (hp : s.Ranged → p < 480) :
    EventKeeps s (t.setPosition p { t.position p with downTaken := true }) := h.setPosition hp

theorem EventKeeps.upstreamCarried (h : EventKeeps s t) {p : Nat} (hp : s.Ranged → p < 480) (code : Byte) :
    EventKeeps s (t.upstreamCarried p code) :=
  ((((h.supplyBoth p).advanceTxAt p).driveBoth hp).upstream hp code).markUp hp

theorem EventKeeps.downstreamCarried (h : EventKeeps s t) {p : Nat} (hp : s.Ranged → p < 480) (code : Byte) :
    EventKeeps s (t.downstreamCarried p code) :=
  (((h.supplyBoth p).beforeDownstream.driveBoth hp).downstream hp code _).markDown hp

theorem EventKeeps.driveSlot (h : EventKeeps s t) {p : Nat} (hp : s.Ranged → p < 480) (side : Side) :
    EventKeeps s (t.driveSlot p side) := by
  refine (h.supplyBoth p).setPosition hp fun _ hpos => ?_
  cases side with
  | switch => exact (Position.inRange_driveSwitch _).trans hpos
  | line => exact (Position.inRange_driveLine _).trans hpos

end Sys2Proof.Machine
end

section
/-! Every command completes, leaves the queue of commands alone, and keeps the ranges of the fields if its operands are
ones that the pins can bring. -/

namespace Sys2Proof.Machine

variable {ok : Prop} {s t u : State}

/-- What a command keeps: the commands that wait, and the ranges of the fields under what its operands have to be. -/
structure CommandKeeps (ok : Prop) (s t : State) : Prop where
  pending : t.pending = s.pending
  ranged : ok → s.Ranged → t.Ranged

theorem EventKeeps.pending (h : EventKeeps s t) : t.pending = s.pending := congrArg Prod.fst h.fixed

theorem EventKeeps.command (h : EventKeeps s t) : CommandKeeps ok s t := ⟨h.pending, fun _ => h.ranged⟩

theorem CommandKeeps.refl (s : State) : CommandKeeps ok s s := (EventKeeps.refl s).command

theorem CommandKeeps.after (h : EventKeeps s t) (h' : CommandKeeps ok t u) : CommandKeeps ok s u :=
  ⟨h'.pending.trans h.pending, fun hok hs => h'.ranged hok (h.ranged hs)⟩

theorem CommandKeeps.event (h : CommandKeeps ok s t) (h' : EventKeeps t u) : CommandKeeps ok s u :=
  ⟨h'.pending.trans h.pending, fun hok hs => h'.ranged (h.ranged hok hs)⟩

/-! ### Line cells (chapter 5) -/

theorem State.Ranged.findIdentity_lt (h : s.Ranged) {identity e : Nat} (he : s.findIdentity identity = some e) :
    e < 1024 := by
  simp only [State.findIdentity, Option.map_eq_some_iff] at he
  obtain ⟨x, hx, rfl⟩ := he
  exact (Table.wf_bound h.entries.wf x (List.mem_of_find?_eq_some hx)).1

theorem EventKeeps.signOnEntry (h : EventKeeps s t) {p e : Nat} (hp : s.Ranged → p < 480) (he : s.Ranged → e < 1024) :
    EventKeeps s (t.signOnEntry p e) := by
  unfold State.signOnEntry
  split
  · exact h.rejectWithBackoff hp _
  · split
    · exact h.rejectWithBackoff hp _
    · split
      · exact h.rejectWithBackoff hp _
      · exact h.createCandidate he hp _

theorem EventKeeps.signOnAt (h : EventKeeps s t) {p : Nat} (hp : s.Ranged → p < 480) (identity : Nat) :
    EventKeeps s (t.signOnAt p identity) := by
  unfold State.signOnAt State.signOnFree
  split
  · exact h.replyTo hp _
  · split
    · exact h.waitWithBackoff hp
    · split
      · exact h.rejectWithBackoff hp _
      · split
        · exact (h.rejectWithBackoff hp _).report _
        · next hfound => exact h.signOnEntry hp fun hs => (h.ranged hs).findIdentity_lt hfound

/-- The item of an ANSWER names the entry and the position of its candidate. -/
theorem EventKeeps.appendItem (h : EventKeeps s t) {e p : Nat} {c : Candidate} (hc : (t.entry e).candidate = some c)
    (he : s.Ranged → e < 1024) (hp : s.Ranged → p < 480) (response : Response) :
    EventKeeps s (t.appendItem e c p response) := by
  have hqueued : EventKeeps s (t.setEntry e { t.entry e with candidate := some { c with stage := .queued } }) :=
    h.setEntry he fun hs hentry => Entry.inRange_candidate hentry (by simpa using (h.ranged hs).candidate_lt hc)
  refine ⟨hqueued.fixed, fun hs => ?_⟩
  have ht := hqueued.ranged hs
  refine { ht with verifyQueue := fun i hi => ?_ }
  rcases List.mem_append.1 hi with hi | hi
  · exact ht.verifyQueue i hi
  · rw [List.mem_singleton.1 hi]
    exact VerifyItem.inRange_iff.2 ⟨he hs, hp hs⟩

theorem EventKeeps.answerAt (h : EventKeeps s t) {p : Nat} (hp : s.Ranged → p < 480) (response : Response) :
    EventKeeps s (t.answerAt p response) := by
  unfold State.answerAt State.answerFor
  split
  · exact h.replyTo hp _
  · next hpending =>
    split
    · exact h
    · next hc =>
      split
      · exact h
      · split
        · exact h.waitWithBackoff hp
        · exact h.appendItem hc (fun hs => (h.ranged hs).pending_lt hpending) hp response

theorem EventKeeps.keepaliveAt (h : EventKeeps s t) {p : Nat} (hp : s.Ranged → p < 480) :
    EventKeeps s (t.keepaliveAt p) := by
  unfold State.keepaliveAt State.keepaliveOf
  split
  · exact h.replyTo hp _
  · next e howner =>
    have hreloaded : EventKeeps s (t.reloadRefresh e) := h.setEntry fun hs => (h.ranged hs).owner_lt howner
    split
    · exact hreloaded
    · split
      · exact hreloaded
      · exact hreloaded
      · split
        · exact h.replyTo hp _
        · exact h

theorem EventKeeps.signOffAt (h : EventKeeps s t) {p : Nat} (hp : s.Ranged → p < 480) : EventKeeps s (t.signOffAt p) := by
  have howner : EventKeeps s
      (match (t.position p).owner with
        | none => t
        | some e => t.signOffOwner p e) := by
    split
    · exact h
    · next howner =>
      have he (hs : s.Ranged) := (h.ranged hs).owner_lt howner
      exact ((h.dropCandidate he).endAdmission he _ _).report _
  unfold State.signOffAt
  dsimp only
  split
  · exact howner.replyTo hp _
  · next hpending => exact (howner.dropCandidate fun hs => (howner.ranged hs).pending_lt hpending).replyTo hp _

/-! ### Entries, groups and keys (chapter 4) -/

theorem Entry.inRange_load {e : Entry} (h : e.inRange = true) {group identity : Nat} (hgroup : group < 16)
    (hidentity : identity ≤ 99999999) : (e.load group identity).inRange = true := by
  rw [Entry.inRange_iff] at h ⊢
  obtain ⟨-, -, h3, h4, hfailures, h6⟩ := h
  refine ⟨hidentity, Nat.le_of_lt_succ hgroup, h3, h4, ?_, h6⟩
  dsimp only [Entry.load]
  split
  · exact Nat.zero_le _
  · exact hfailures

theorem CommandKeeps.loadExtension (s : State) (tag : Byte) (e group identity : Nat) :
    CommandKeeps (group < 16) s (s.loadExtension tag e group identity) := by
  have hrefused (reason : Reason) : CommandKeeps (group < 16) s (s.refuse tag 1 reason) :=
    ((EventKeeps.refl s).refuse _ _ _).command
  unfold State.loadExtension
  split
  · exact hrefused _
  · next he =>
    split
    · exact hrefused _
    · next hidentity =>
      split
      · exact hrefused _
      · split
        · exact hrefused _
        · have haccepted := (EventKeeps.refl s).accept tag (.entryCommand .loadExtension e)
          refine ⟨haccepted.pending, fun hgroup hs => ?_⟩
          refine (haccepted.setEntry (fun _ => by omega) fun _ _ => ?_).ranged hs
          exact Entry.inRange_load (hs.entry e) hgroup (by omega)

theorem EventKeeps.removeEntry (h : EventKeeps s t) {e : Nat} (he : s.Ranged → e < 1024) (cause : CloseCause)
    (state : EntryState) : EventKeeps s (t.removeEntry e cause state) := by
  have hended := (h.dropCandidate he).endAdmission he cause state
  unfold State.removeEntry State.forceOff
  cases (t.entry e).state with
  | admitted =>
    cases hhome : (t.entry e).home with
    | none => exact hended
    | some p => exact hended.replyTo (fun hs => (h.ranged hs).home_lt hhome) _
  | absent | barred | unloaded => exact (h.dropCandidate he).setEntryState he state

theorem EventKeeps.unloadExtension (h : EventKeeps s t) (tag : Byte) (e : Nat) :
    EventKeeps s (t.unloadExtension tag e) := by
  unfold State.unloadExtension
  split
  · exact h.refuse _ _ _
  · next hle =>
    have he (_ : s.Ranged) : e < 1024 := by omega
    split
    · exact h.refuse _ _ _
    · exact ((h.accept _ _).removeEntry he _ _).setEntry he fun _ hentry =>
        Entry.inRange_failures hentry (Nat.zero_le _)

theorem EventKeeps.forceSignOff (h : EventKeeps s t) (tag : Byte) (e : Nat) : EventKeeps s (t.forceSignOff tag e) := by
  unfold State.forceSignOff
  split
  · exact h.refuse _ _ _
  · split
    · exact h.refuse _ _ _
    · split
      · exact h.refuse _ _ _
      · exact (h.accept _ _).removeEntry (fun _ => by omega) _ _

theorem EventKeeps.barEntry (h : EventKeeps s t) (tag : Byte) (e : Nat) : EventKeeps s (t.barEntry tag e) := by
  unfold State.barEntry
  split
  · exact h.refuse _ _ _
  · split
    · exact h.refuse _ _ _
    · exact (h.accept _ _).removeEntry (fun _ => by omega) _ _

theorem EventKeeps.unbarEntry (s : State) (tag : Byte) (e : Nat) : EventKeeps s (s.unbarEntry tag e) := by
  have h := EventKeeps.refl s
  unfold State.unbarEntry
  split
  · exact h.refuse _ _ _
  · split
    · exact h.refuse _ _ _
    · exact (h.accept _ _).setEntry (fun _ => by omega) fun hs _ =>
        Entry.inRange_failures (e := s.entry e) (hs.entry e) (Nat.zero_le _)

theorem Group.inRange_iff {g : Group} : g.inRange = true ↔ g.budget ≤ 256 ∧ g.inUse ≤ 256 ∧
    (1 ≤ g.refresh ∧ g.refresh ≤ 4095) ∧ g.rechallenge ≤ 32767 ∧ 1 ≤ g.failureLimit ∧ g.failureLimit ≤ 7 := by
  simp [Group.inRange, and_assoc]

theorem EventKeeps.setGroupLimits (s : State) (tag : Byte) (g budget limit : Nat) :
    EventKeeps s (s.setGroupLimits tag g budget limit) := by
  have h := EventKeeps.refl s
  unfold State.setGroupLimits
  split
  · exact h.refuse _ _ _
  · refine (h.accept _ _).setGroup (fun _ => by omega) fun hs _ => ?_
    have hgroup := hs.group g
    rw [Group.inRange_iff] at hgroup ⊢
    obtain ⟨-, hinUse, htimes, hrechallenge, -⟩ := hgroup
    refine ⟨?_, hinUse, htimes, hrechallenge, ?_⟩
    · dsimp only [appliedBudget]; omega
    · dsimp only [appliedFailureLimit]; omega

theorem EventKeeps.setGroupTimes (s : State) (tag : Byte) (g refresh rechallenge : Nat) :
    EventKeeps s (s.setGroupTimes tag g refresh rechallenge) := by
  have h := EventKeeps.refl s
  unfold State.setGroupTimes
  split
  · exact h.refuse _ _ _
  · refine (h.accept _ _).setGroup (fun _ => by omega) fun hs _ => ?_
    have hgroup := hs.group g
    rw [Group.inRange_iff] at hgroup ⊢
    obtain ⟨hbudget, hinUse, -, -, hlimit⟩ := hgroup
    exact ⟨hbudget, hinUse, by dsimp only; omega, by dsimp only; omega, hlimit⟩

theorem EventKeeps.reportBroken (h : EventKeeps s t) (broken : Option PairHalf) : EventKeeps s (t.reportBroken broken) := by
  unfold State.reportBroken
  split
  · exact h
  · exact h.report _

/-- What the Pair Buffer holds after a half is that half or nothing (R167). -/
theorem CommandKeeps.writePair (h : EventKeeps s t) {new : PairHalf} (hnew : new.target.inRange = true)
    (old : Option PairHalf) : CommandKeeps ok s { t with pairBuffer := new.leaves old } := by
  refine ⟨h.pending, fun _ hs => { h.ranged hs with pairBuffer := fun half hhalf => ?_ }⟩
  unfold PairHalf.leaves at hhalf
  split at hhalf
  · nomatch hhalf
  · obtain rfl := Option.some.inj hhalf
    exact hnew

theorem CommandKeeps.secretHalf (s : State) (tag : Byte) (half : Half) (e : Nat) (first second : KeyWord) :
    CommandKeeps ok s (s.secretHalf tag half e first second) := by
  have h := EventKeeps.refl s
  unfold State.secretHalf
  split
  · exact (h.refuse _ _ _).command
  · next hle =>
    split
    · exact (h.refuse _ _ _).command
    · have hwritten : CommandKeeps ok s _ := .writePair (h.setEntry (e := e)
        (v := { s.entry e with secret := PairHalf.joined ⟨.secret e, half, first, second⟩ s.pairBuffer })
        fun _ => by omega) (new := ⟨.secret e, half, first, second⟩) (decide_eq_true (by omega)) s.pairBuffer
      exact hwritten.event (((EventKeeps.refl _).accept _ _).reportBroken _)

theorem CommandKeeps.stagedHalf (s : State) (tag : Byte) (half : Half) (j : Nat) (first second : KeyWord) :
    CommandKeeps ok s (s.stagedHalf tag half j first second) := by
  have h := EventKeeps.refl s
  unfold State.stagedHalf
  split
  · exact (h.refuse _ _ _).command
  · next hle =>
    split
    · exact (h.refuse _ _ _).command
    · have hwritten : CommandKeeps ok s _ := .writePair (h.setContext (j := j)
        (v := { s.context j with
          staged := (PairHalf.joined ⟨.stagedKey j, half, first, second⟩ s.pairBuffer).map (fun k => ⟨k, false, false⟩) })
        fun _ => by omega) (new := ⟨.stagedKey j, half, first, second⟩) (decide_eq_true (by omega)) s.pairBuffer
      exact hwritten.event (((EventKeeps.refl _).accept _ _).reportBroken _)

/-! ### Calls (R117, R118, R121) -/

theorem EventKeeps.openContext (s : State) (tag : Byte) {j p e : Nat} (loop : Bool) (key : Key) (hj : j ≤ 255) (hp : p ≤ 479)
    (howner : (s.position p).owner = some e) (hbudget : (s.groupOf e).inUse < (s.groupOf e).budget) :
    EventKeeps s (s.openContext tag j p e loop key) := by
  have hp' (_ : s.Ranged) : p < 480 := by omega
  have he (hs : s.Ranged) : e < 1024 := hs.owner_lt howner
  refine EventKeeps.accept (EventKeeps.strike (((((EventKeeps.refl s).setContext (fun _ => by omega) fun hs _ => ?_).setPosition hp'
    fun _ hpos => ?_).setEntry he fun _ hentry => ?_).setGroup (fun hs => hs.entryGroup_lt e) fun hs hgroup => ?_)
    fun hb => ?_) _ _
  · have hcontext := hs.context j
    rw [Context.inRange_iff] at hcontext ⊢
    exact ⟨by simpa [Context.opened] using (⟨hp' hs, he hs⟩ : Call.Within ⟨p, e, key, key⟩), Nat.zero_le _, .inl rfl,
      Nat.zero_le _, Nat.zero_le _⟩
  · have hcontext : ∀ k ∈ some j, k < 256 := by simpa using Nat.lt_succ_of_le hj
    exact Position.inRange_context (pos := s.position p) hpos hcontext
  · exact Entry.inRange_context hentry (by simpa using Nat.lt_succ_of_le hj)
  · have hle := (Group.inRange_iff.1 (hs.group (s.entry e).group)).1
    exact Group.inRange_inUse hgroup (Nat.le_trans hbudget hle)
  · rw [Boundary.inRange_iff] at hb ⊢
    obtain ⟨h1, h2, htx, h4⟩ := hb
    exact ⟨h1, h2, fun k hk => htx k (List.mem_of_mem_erase hk), h4⟩

theorem EventKeeps.openCall (s : State) (tag : Byte) (j p loopFlag : Nat) : EventKeeps s (s.openCall tag j p loopFlag) := by
  have hrefused (reason : Reason) : EventKeeps s (s.refuse tag 10 reason) := (EventKeeps.refl s).refuse _ _ _
  unfold State.openCall
  split
  · exact hrefused _
  · split
    · exact hrefused _
    · split
      · exact hrefused _
      · split
        · exact hrefused _
        · unfold State.openCallAt
          split
          · exact hrefused _
          · next howner =>
            split
            · exact hrefused _
            · split
              · exact hrefused _
              · split
                · exact hrefused _
                · split
                  · exact hrefused _
                  · exact .openContext s tag _ _ (by omega) (by omega) howner (by omega)

theorem EventKeeps.closeCall (h : EventKeeps s t) (tag : Byte) (j : Nat) : EventKeeps s (t.closeCall tag j) := by
  unfold State.closeCall
  split
  · exact h.refuse _ _ _
  · exact (h.accept _ _).closeContext _ _

/-! ### Paths and playout (R49, R50, R156 to R159) -/

theorem EventKeeps.setPositionTreatment (s : State) (tag : Byte) (p treatment toneChannel : Nat) :
    EventKeeps s (s.setPositionTreatment tag p treatment toneChannel) := by
  have h := EventKeeps.refl s
  unfold State.setPositionTreatment
  split
  · exact h.refuse _ _ _
  · split
    · exact h.refuse _ _ _
    · split
      · exact h.refuse _ _ _
      · split
        · exact h.refuse _ _ _
        · refine (h.accept _ _).setPosition (fun _ => by omega) fun hs _ => ?_
          have hpos := hs.position p
          rw [Position.inRange_iff] at hpos ⊢
          obtain ⟨-, hrest⟩ := hpos
          exact ⟨by dsimp only [Position.treated]; omega, hrest⟩

theorem Position.inRange_gained {pos : Position} (h : pos.inRange = true) (direction : Direction) {gain : Nat}
    (hgain : gain ≤ 512) : (pos.gained direction gain).inRange = true := by
  rw [Position.inRange_iff] at h ⊢
  obtain ⟨htone, hup, hdown, howner, hpending, hcontext, hattempts, -⟩ := h
  cases direction with
  | up => exact ⟨htone, hgain, hdown, howner, hpending, hcontext, hattempts, Nat.zero_le _, Nat.zero_le _⟩
  | down => exact ⟨htone, hup, hgain, howner, hpending, hcontext, hattempts, Nat.zero_le _, Nat.zero_le _⟩
  | both => exact ⟨htone, hgain, hgain, howner, hpending, hcontext, hattempts, Nat.zero_le _, Nat.zero_le _⟩

theorem EventKeeps.setPositionGain (s : State) (tag : Byte) (p direction gain : Nat) :
    EventKeeps s (s.setPositionGain tag p direction gain) := by
  have h := EventKeeps.refl s
  unfold State.setPositionGain
  split
  · exact h.refuse _ _ _
  · split
    · exact h.refuse _ _ _
    · exact (h.accept _ _).setPosition (fun _ => by omega) fun hs _ =>
        Position.inRange_gained (hs.position p) _ (Nat.min_le_left _ _)

theorem CommandKeeps.loadPattern (s : State) (tag : Byte) (a : Nat) (c0 c1 c2 c3 : Byte) :
    CommandKeeps ok s (s.loadPattern tag a c0 c1 c2 c3) := by
  unfold State.loadPattern
  split
  · exact ((EventKeeps.refl s).refuse _ _ _).command
  · have hwritten : CommandKeeps ok s { s with pattern := s.pattern.writeFour a c0 c1 c2 c3 } :=
      ⟨rfl, fun _ hs => { hs with pattern := Memory.writeFour_wf hs.pattern (by omega) }⟩
    exact hwritten.event ((EventKeeps.refl _).accept _ _)

/-- A channel started within Pattern Memory, with a repeat count of one byte (R158). -/
theorem Channel.inRange_started {start repeats : Nat} (hstart : start ≤ 8191) (hrepeats : repeats < 256) (length : Nat)
    (mode : PlayoutMode) : (startedChannel start length repeats mode).inRange = true := by
  refine Channel.inRange_iff.2 ⟨hstart, ?_, ?_, le_rfl, ?_, ?_⟩
  · exact le_max_left ..
  · dsimp only [startedChannel, appliedLength]; omega
  · dsimp only [startedChannel, appliedLength]; omega
  · unfold startedChannel repeatsOf
    dsimp only
    split
    · rfl
    · exact decide_eq_true (by omega)

theorem CommandKeeps.setPlayout (s : State) (tag : Byte) (c repeats mode start length : Nat) :
    CommandKeeps (repeats < 256) s (s.setPlayout tag c repeats mode start length) := by
  have hrefused (reason : Reason) : CommandKeeps (repeats < 256) s (s.refuse tag 15 reason) :=
    ((EventKeeps.refl s).refuse _ _ _).command
  unfold State.setPlayout
  split
  · exact hrefused _
  · split
    · exact hrefused _
    · split
      · exact hrefused _
      · next m _ =>
        have hset : CommandKeeps (repeats < 256) s (s.setChannel c (startedChannel start length repeats m)) := by
          refine ⟨rfl, fun hrepeats hs => ?_⟩
          exact ((EventKeeps.refl s).setChannel (fun _ => by omega) fun _ _ =>
            Channel.inRange_started (by omega) hrepeats length m).ranged hs
        exact hset.event ((EventKeeps.refl _).accept _ _)

theorem EventKeeps.stopPlayout (s : State) (tag : Byte) (c : Nat) : EventKeeps s (s.stopPlayout tag c) := by
  have h := EventKeeps.refl s
  unfold State.stopPlayout
  split
  · exact h.refuse _ _ _
  · refine (h.setChannel (fun _ => by omega) fun _ hchannel => ?_).accept _ _
    unfold Channel.stop
    split
    · next hrunning =>
      rw [Channel.inRange_iff, hrunning] at hchannel
      obtain ⟨h1, h2, h3, h4, h5, hrepeats⟩ := hchannel
      refine Channel.inRange_iff.2 ⟨h1, h2, h3, h4, h5, ?_⟩
      cases hcount : (s.channel c).repeats <;> simp_all [repeatsInRange]
    · exact hchannel
    · exact hchannel

end Sys2Proof.Machine
end

section
/-! The rest of the commands: the Control Channel Unit's own cells, the pins and the pulses; and what a step keeps. -/

namespace Sys2Proof.Machine

variable {ok : Prop} {s t u : State}

/-! ### SET DEVICE (R168) -/

/-- The Settings within the ranges of R168, setting by setting. -/
structure Settings.Ranged (x : Settings) : Prop where
  syncSpan : isSyncSpan x.syncSpan = true
  rekeyMultiple : x.rekeyMultiple ≤ 255
  missLimit : 1 ≤ x.missLimit ∧ x.missLimit ≤ 7
  answerWindow : 800 ≤ x.answerWindow ∧ x.answerWindow ≤ 65535
  baseHoldOff : 8 ≤ x.baseHoldOff ∧ x.baseHoldOff ≤ 4096
  challengeTone : below 16 x.challengeTone = true
  securingTone : below 16 x.securingTone = true
  keyMissTone : below 16 x.keyMissTone = true
  levels : ∀ l ∈ x.levels.toList, l ≤ 7

theorem Settings.inRange_iff_ranged {x : Settings} : x.inRange = true ↔ x.Ranged := by
  simp only [Settings.inRange, Bool.and_eq_true, decide_eq_true_eq, List.all_eq_true]
  constructor
  · rintro ⟨⟨⟨⟨⟨⟨⟨⟨h1, h2⟩, h3⟩, h4⟩, h5⟩, h6⟩, h7⟩, h8⟩, h9⟩
    exact ⟨h1, h2, h3, h4, h5, h6, h7, h8, h9⟩
  · rintro ⟨h1, h2, h3, h4, h5, h6, h7, h8, h9⟩
    exact ⟨⟨⟨⟨⟨⟨⟨⟨h1, h2⟩, h3⟩, h4⟩, h5⟩, h6⟩, h7⟩, h8⟩, h9⟩

/-- A tone role names a playout channel or none. -/
theorem below_roleOfValue (value : Nat) : below 16 ((roleOfValue value).getD none) = true := by
  unfold roleOfValue
  split
  · rfl
  · split
    · exact decide_eq_true (by omega)
    · rfl

/-- A level setting takes the value 0 to 7 that the clamp gives it. -/
theorem Settings.Ranged.writeLevel {x : Settings} (h : x.Ranged) (i : Nat) {level : Nat} (hlevel : level ≤ 7) :
    ({ x with levels := x.levels.setIfInBounds i level } : Settings).Ranged := by
  refine { h with levels := fun l hl => ?_ }
  rw [Vector.toList_setIfInBounds] at hl
  rcases List.mem_or_eq_of_mem_set hl with hl | rfl
  · exact h.levels l hl
  · exact hlevel

/-- The value that R168 applies lies in the range of its setting. -/
theorem Settings.Ranged.write {x : Settings} (h : x.Ranged) {n value v : Nat} (hv : appliedSetting n value = some v) :
    (x.write n v).Ranged := by
  unfold appliedSetting at hv
  unfold Settings.write
  split at hv
  · split at hv
    · next hspan => obtain rfl := Option.some.inj hv; exact { h with syncSpan := hspan }
    · nomatch hv
  · obtain rfl := Option.some.inj hv; exact { h with rekeyMultiple := by dsimp only; omega }
  · obtain rfl := Option.some.inj hv; exact { h with missLimit := by dsimp only; omega }
  · obtain rfl := Option.some.inj hv; exact { h with answerWindow := by dsimp only; omega }
  · obtain rfl := Option.some.inj hv; exact { h with baseHoldOff := by dsimp only; omega }
  · exact { h with challengeTone := below_roleOfValue _ }
  · exact { h with securingTone := below_roleOfValue _ }
  · exact { h with keyMissTone := below_roleOfValue _ }
  · obtain rfl := Option.some.inj hv
    split
    · exact h.writeLevel _ (Nat.min_le_left _ _)
    · exact h

theorem CommandKeeps.setDevice (s : State) (tag : Byte) (n value : Nat) : CommandKeeps ok s (s.setDevice tag n value) := by
  have hrefused (reason : Reason) : CommandKeeps ok s (s.refuse tag 17 reason) :=
    ((EventKeeps.refl s).refuse _ _ _).command
  unfold State.setDevice
  split
  · exact hrefused _
  · split
    · exact hrefused _
    · split
      · exact hrefused _
      · next v hv =>
        have hwritten : CommandKeeps ok s { s with settings := s.settings.write n v } := ⟨rfl, fun _ hs =>
          { hs with settings := Settings.inRange_iff_ranged.2 ((Settings.inRange_iff_ranged.1 hs.settings).write hv) }⟩
        exact hwritten.event ((EventKeeps.refl _).accept _ _)

/-! ### READ and RESTART (R169, R170) -/

theorem CommandKeeps.readPage (s : State) (tag : Byte) (kind index part : Nat) :
    CommandKeeps ok s (s.readPage tag kind index part) := by
  have hrefused (reason : Reason) : CommandKeeps ok s (s.refuse tag 18 reason) :=
    ((EventKeeps.refl s).refuse _ _ _).command
  unfold State.readPage
  split
  · exact hrefused _
  · split
    · exact hrefused _
    · split
      · exact hrefused _
      · next page _ =>
        have hfilled : CommandKeeps ok s { s with freeCount := s.freeCount + openCount page } := ⟨rfl, fun _ hs => { hs with }⟩
        exact hfilled.event ((EventKeeps.refl _).joinCell (Nat.zero_le _) _)

theorem Context.inRange_restarted {c : Context} (h : c.inRange = true) : c.restarted.inRange = true := by
  rw [Context.inRange_iff] at h ⊢
  obtain ⟨-, hmisses, hsync, hslips, -⟩ := h
  exact ⟨nofun, hmisses, hsync, hslips, Nat.zero_le _⟩

theorem Entry.inRange_restarted {e : Entry} (h : e.inRange = true) : e.restarted.inRange = true := by
  rw [Entry.inRange_iff] at h ⊢
  obtain ⟨hidentity, hgroup, -⟩ := h
  exact ⟨hidentity, hgroup, nofun, nofun, Nat.zero_le _, nofun⟩

theorem Position.inRange_restarted {pos : Position} (h : pos.inRange = true) : pos.restarted.inRange = true := by
  rw [Position.inRange_iff] at h ⊢
  obtain ⟨htone, hup, hdown, -, -, -, -, hclamps⟩ := h
  exact ⟨htone, hup, hdown, nofun, nofun, nofun, Nat.zero_le _, hclamps⟩

theorem Highway.inRange_emptied {x : Highway} (h : x.inRange = true) : ({ x with queue := [] } : Highway).inRange = true := by
  simp only [Highway.inRange, Bool.and_eq_true, decide_eq_true_eq] at h ⊢
  obtain ⟨⟨-, hsending⟩, hdrops⟩ := h
  exact ⟨⟨⟨Nat.zero_le _, rfl⟩, hsending⟩, hdrops⟩

theorem CommandKeeps.restartCalls (s : State) : CommandKeeps ok s s.restartCalls := by
  refine ⟨rfl, fun _ hs => { hs with
    contexts := hs.contexts.mapAll fun _ => Context.inRange_restarted
    positions := hs.positions.mapAll fun _ h => Position.inRange_context (context := none) h nofun
    entries := hs.entries.mapAll fun _ h => Entry.inRange_context (context := none) h nofun
    groups := hs.groups.mapAll fun _ h => Group.inRange_inUse h (Nat.zero_le _)
    reserved := nofun
    pairBuffer := fun half hhalf => hs.pairBuffer half ?_ }⟩
  exact (Option.mem_filter_iff.1 hhalf).1

theorem CommandKeeps.restartAdmissions (s : State) : CommandKeeps ok s s.restartAdmissions :=
  ⟨rfl, fun _ hs => { hs with
    entries := hs.entries.mapAll fun _ => Entry.inRange_restarted
    positions := hs.positions.mapAll fun _ => Position.inRange_restarted
    highways := hs.highways.mapAll fun _ => Highway.inRange_emptied
    pairBuffer := nofun
    inFlight := List.forall_mem_map.2 hs.inFlight
    completing := List.forall_mem_map.2 hs.completing
    verifyQueue := nofun
    levels := nofun }⟩

theorem CommandKeeps.trans (h : CommandKeeps ok s t) (h' : CommandKeeps ok t u) : CommandKeeps ok s u :=
  ⟨h'.pending.trans h.pending, fun hok hs => h'.ranged hok (h.ranged hok hs)⟩

theorem CommandKeeps.restart (s : State) (tag : Byte) (scope : Nat) : CommandKeeps ok s (s.restart tag scope) := by
  unfold State.restart
  split
  · exact ((EventKeeps.refl s).refuse _ _ _).command
  · exact (CommandKeeps.restartCalls s).event (((EventKeeps.refl _).report _).accept _ _)
  · exact ((CommandKeeps.restartCalls s).trans (.restartAdmissions _)).event (((EventKeeps.refl _).report _).accept _ _)

/-! ### The pins and the pulses (R2, R13, R14) -/

theorem State.ranged_reset {pending : List Instr} (h : ∀ c ∈ pending, c.wellFormed = true) (freeCount : Nat) :
    ({ State.reset with pending := pending, freeCount := freeCount } : State).Ranged where
  positions := ⟨rfl, rfl⟩
  entries := ⟨rfl, rfl⟩
  groups := ⟨rfl, rfl⟩
  contexts := ⟨rfl, rfl⟩
  channels := ⟨rfl, rfl⟩
  highways := ⟨rfl, rfl⟩
  pattern := rfl
  commands := h
  prescale := Nat.zero_le _
  boundary := rfl
  reserved := nofun
  inFlight := nofun
  completing := nofun
  verifyQueue := nofun
  pairBuffer := nofun
  settings := rfl
  levels := List.forall_mem_singleton.2 (Nat.zero_le _)
  lostReports := Nat.zero_le _

theorem CommandKeeps.withPulse (s : State) (pulse : Pulse) : CommandKeeps ok s { s with pulse := pulse } :=
  ⟨rfl, fun _ hs => { hs with }⟩

theorem CommandKeeps.firstPulse (s : State) : CommandKeeps ok s s.firstPulse := by
  have hsent (indices : List Nat) (hindices : ∀ i ∈ indices, i < 4) {t : State} (h : CommandKeeps ok s t) :
      CommandKeeps ok s (t.forEach indices (fun s h => s.sendLine h false)) := by
    induction indices generalizing t with
    | nil => exact h
    | cons i indices ih =>
      obtain ⟨hi, hrest⟩ := List.forall_mem_cons.1 hindices
      exact ih hrest (h.event ((EventKeeps.refl _).sendLine (fun _ => hi) _))
  exact (hsent _ (fun i hi => List.mem_range.1 hi) (.withPulse s .running)).event ((EventKeeps.refl _).sendReport _)

theorem Position.inRange_endFrame (cut : Bool) {pos : Position} (h : pos.inRange = true) :
    (pos.endFrame cut).inRange = true := by
  cases cut with
  | true => exact h
  | false => exact (Position.inRange_driveLine _).trans ((Position.inRange_driveSwitch _).trans h)

theorem State.Ranged.runningChannels_lt (h : s.Ranged) {c : Nat} (hc : c ∈ s.runningChannels) : c < 16 := by
  obtain ⟨x, hx, rfl⟩ := List.mem_map.1 hc
  exact (Table.wf_bound h.channels.wf x (List.mem_of_mem_filter hx)).1

theorem State.Ranged.openContexts_lt (h : s.Ranged) {j : Nat} (hj : j ∈ s.openContexts) : j < 256 := by
  obtain ⟨x, hx, rfl⟩ := List.mem_map.1 hj
  exact (Table.wf_bound h.contexts.wf x (List.mem_of_mem_filter hx)).1

theorem State.missing_lt {taken : Position → Bool} {p : Nat} (hp : p ∈ s.missing taken) : p < 480 :=
  List.mem_range.1 (List.mem_of_mem_filter hp)

theorem State.Ranged.boundaryAfter (h : s.Ranged) (cut : Bool) : (s.boundaryAfter cut).inRange = true := by
  refine Boundary.inRange_iff.2 ⟨fun _ => List.mem_range.1, fun _ => h.runningChannels_lt, fun _ => h.openContexts_lt, ?_⟩
  cases cut with
  | true => exact ⟨fun _ => State.missing_lt, fun _ => State.missing_lt⟩
  | false => exact ⟨nofun, nofun⟩

theorem CommandKeeps.crossBoundary (s : State) (cut : Bool) : CommandKeeps ok s (s.crossBoundary cut) := by
  refine ⟨rfl, fun _ hs => { hs with
    positions := hs.positions.mapAll fun _ => Position.inRange_endFrame cut
    prescale := ?_
    boundary := hs.boundaryAfter cut
    reserved := fun _ => hs.openContexts_lt
    inFlight := nofun
    completing := fun f hf => (List.mem_append.1 hf).elim (hs.completing f) (hs.inFlight f) }⟩
  have hprescale := hs.prescale
  simp only [State.crossBoundary, prescaleAfter]
  split <;> omega

theorem CommandKeeps.framePulse (s : State) (early : Bool) : CommandKeeps ok s (s.framePulse early) := by
  have hboundary : CommandKeeps ok s (s.finishBoundary.crossBoundary (s.cutsShort early)) :=
    (CommandKeeps.crossBoundary _ _).after (.finishBoundary s)
  unfold State.framePulse
  split
  · exact .firstPulse s
  · exact hboundary
  · exact hboundary

/-! ### The commands -/

theorem CommandKeeps.of_whilePulsed {effect : State → State} (h : s.whilePulsed effect = .next t)
    (he : CommandKeeps ok s (effect s)) : CommandKeeps ok s t := by
  obtain rfl := Host.Outcome.next.inj h
  split
  · exact .refl s
  · exact he

/-- A management cell acts on what the boundary leaves. -/
theorem CommandKeeps.of_managementCell {effect : State → State} (h : s.managementCell effect = .next t)
    (he : ∀ v, CommandKeeps ok v (effect v)) : CommandKeeps ok s t :=
  .of_whilePulsed h ((he _).after (.finishBoundary s))

theorem CommandKeeps.of_eventCell {effect : State → State} (h : s.managementCell effect = .next t)
    (he : ∀ v, EventKeeps v (effect v)) : CommandKeeps ok s t :=
  .of_managementCell h fun v => (he v).command

theorem positionOf_lt (highway : Fin 4) {slot : Nat} (hslot : slot < 120) : positionOf highway slot < 480 := by
  have := highway.isLt
  unfold positionOf
  omega

/-- A line cell acts on what the boundary leaves, at a position of the part. -/
theorem CommandKeeps.of_lineCell {highway : Fin 4} {slot : Nat} {effect : Nat → State → State}
    (h : s.lineCell highway slot effect = .next t) (he : ∀ v, ∀ p < 480, EventKeeps v (effect p v)) :
    CommandKeeps ok s t := by
  refine .of_whilePulsed h ?_
  split
  · next hslot => exact (he _ _ (positionOf_lt highway hslot)).command.after (.finishBoundary s)
  · exact .refl s

/-- Every command leaves the queue of commands alone, and keeps the ranges if its operands are ones a pin can bring. -/
theorem exec_keeps {c : Instr} (h : exec c s = .next t) : CommandKeeps (c.wellFormed = true) s t := by
  cases c
  all_goals simp only [exec] at h
  case hardwareReset => obtain rfl := Host.Outcome.next.inj h; exact ⟨rfl, fun _ hs => State.ranged_reset hs.commands _⟩
  case firstFramePulse => obtain rfl := Host.Outcome.next.inj h; exact .framePulse s false
  case frameBoundary cutShort => obtain rfl := Host.Outcome.next.inj h; exact .framePulse s cutShort
  case framePulseAbsent loss =>
    unfold execFramePulseAbsent at h
    split at h
    · obtain rfl := Host.Outcome.next.inj h; exact .withPulse s _
    all_goals obtain rfl := Host.Outcome.next.inj h; exact .refl s
  case lineIdle | lineCellDiscarded | managementIdle => obtain rfl := Host.Outcome.next.inj h; exact .refl s
  case secondCountAdvance => exact .of_whilePulsed h (EventKeeps.refl s).takeSecond.command
  case verificationTake => exact .of_whilePulsed h (EventKeeps.refl s).takeVerifications.command
  case verificationComplete => exact .of_whilePulsed h (EventKeeps.refl s).complete.command
  case lineReplySend highway => exact .of_whilePulsed h ((EventKeeps.refl s).takeLineCell _).command
  case reportSend => exact .of_whilePulsed h (EventKeeps.refl s).takeReport.command
  case upstreamArrival position arrival =>
    cases arrival with
    | carried code => exact .of_whilePulsed h ((EventKeeps.refl s).upstreamCarried (fun _ => position.isLt) _).command
    | supplied => exact .of_whilePulsed h ((EventKeeps.refl s).supplyUp _).command
  case downstreamArrival position arrival =>
    cases arrival with
    | carried code => exact .of_whilePulsed h ((EventKeeps.refl s).downstreamCarried (fun _ => position.isLt) _).command
    | supplied => exact .of_whilePulsed h ((EventKeeps.refl s).supplyDown _).command
  case txFrameAdvance context => exact .of_whilePulsed h ((EventKeeps.refl s).takeTx _).command
  case playoutAdvance channel => exact .of_whilePulsed h ((EventKeeps.refl s).takePlayout _).command
  case holdOffDeadline position => exact .of_whilePulsed h ((EventKeeps.refl s).takeHoldOff _).command
  case answerDeadline entry => exact .of_whilePulsed h ((EventKeeps.refl s).takeAnswerDeadline _).command
  case refreshLapse entry => exact .of_whilePulsed h ((EventKeeps.refl s).takeRefresh _).command
  case rechallengeDeadline entry => exact .of_whilePulsed h ((EventKeeps.refl s).takeRechallenge _).command
  case waitingCodeSent position side =>
    exact .of_whilePulsed h ((EventKeeps.refl s).driveSlot (fun _ => position.isLt) _).command
  case signOn => exact .of_lineCell h fun v _ hp => (EventKeeps.refl v).signOnAt (fun _ => hp) _
  case answer => exact .of_lineCell h fun v _ hp => (EventKeeps.refl v).answerAt (fun _ => hp) _
  case keepalive => exact .of_lineCell h fun v _ hp => (EventKeeps.refl v).keepaliveAt fun _ => hp
  case signOff => exact .of_lineCell h fun v _ hp => (EventKeeps.refl v).signOffAt fun _ => hp
  case unknownKind => exact .of_eventCell h fun v => (EventKeeps.refl v).refuse _ _ _
  case loadExtension tag entry group identity =>
    refine .of_managementCell h fun v => ?_
    obtain ⟨hpending, hranged⟩ := CommandKeeps.loadExtension v tag entry group identity
    refine ⟨hpending, fun hok => hranged ?_⟩
    simp only [Instr.wellFormed, Bool.and_eq_true, decide_eq_true_eq] at hok
    exact hok.1.2
  case unloadExtension => exact .of_eventCell h fun v => (EventKeeps.refl v).unloadExtension _ _
  case secretHalf => exact .of_managementCell h fun v => .secretHalf v _ _ _ _ _
  case forceSignOff => exact .of_eventCell h fun v => (EventKeeps.refl v).forceSignOff _ _
  case bar => exact .of_eventCell h fun v => (EventKeeps.refl v).barEntry _ _
  case unbar => exact .of_eventCell h fun v => .unbarEntry v _ _
  case setGroupLimits => exact .of_eventCell h fun v => .setGroupLimits v _ _ _ _
  case setGroupTimes => exact .of_eventCell h fun v => .setGroupTimes v _ _ _ _
  case stagedHalf => exact .of_managementCell h fun v => .stagedHalf v _ _ _ _ _
  case openCall => exact .of_eventCell h fun v => .openCall v _ _ _ _
  case closeCall => exact .of_eventCell h fun v => (EventKeeps.refl v).closeCall _ _
  case setPositionTreatment => exact .of_eventCell h fun v => .setPositionTreatment v _ _ _ _
  case setPositionGain => exact .of_eventCell h fun v => .setPositionGain v _ _ _ _
  case loadPattern => exact .of_managementCell h fun v => .loadPattern v _ _ _ _ _ _
  case setPlayout tag channel repeats mode start length =>
    refine .of_managementCell h fun v => ?_
    obtain ⟨hpending, hranged⟩ := CommandKeeps.setPlayout v tag channel repeats mode start length
    refine ⟨hpending, fun hok => hranged ?_⟩
    simp only [Instr.wellFormed, Bool.and_eq_true, decide_eq_true_eq] at hok
    obtain ⟨⟨⟨⟨-, hrepeats⟩, -⟩, -⟩, -⟩ := hok
    exact hrepeats
  case stopPlayout => exact .of_eventCell h fun v => .stopPlayout v _ _
  case setDevice => exact .of_managementCell h fun v => .setDevice v _ _ _
  case read => exact .of_managementCell h fun v => .readPage v _ _ _ _
  case restartCalls => exact .of_managementCell h fun v => .restart v _ _
  case restartAll => exact .of_managementCell h fun v => .restart v _ _

/-- Every command answers a next state: the dispatch has no other arm. -/
theorem exec_completes (c : Instr) (s : State) : ∃ t, exec c s = .next t := by
  cases c
  case framePulseAbsent loss =>
    simp only [exec, execFramePulseAbsent]
    split <;> exact ⟨_, rfl⟩
  all_goals exact ⟨_, rfl⟩

/-- Settles O2: each arm of the dispatch answers a next state, and no effect writes the queue of commands. -/
theorem everyCommandCompletes : Obligations.EveryCommandCompletes := by
  intro c s
  obtain ⟨t, ht⟩ := exec_completes c s
  exact ⟨t, ht, (exec_keeps ht).pending⟩

/-- Settles O53: the command at the front of the queue is well formed, and acts on a state with the rest of the queue. -/
theorem everyStepKeepsRanges : Obligations.EveryStepKeepsRanges := by
  intro s t hwf hstep
  rw [State.wf_iff_ranged] at hwf ⊢
  unfold step at hstep
  split at hstep
  · obtain rfl := Host.Outcome.next.inj hstep
    exact hwf
  · next c rest hpending =>
    have hcommands := hwf.commands
    rw [hpending] at hcommands
    obtain ⟨hc, hrest⟩ := List.forall_mem_cons.1 hcommands
    exact (exec_keeps hstep).ranged hc { hwf with commands := hrest }

end Sys2Proof.Machine
end

section
/-! The reset pin, the frame pulse and its loss, and the Second Count (R2, R4, R7, R9, R13, R14). -/

namespace Sys2Proof.Machine

variable {s t : State}

/-! ### Reset (R14) -/

/-- Settles O52: nothing is listed in a table or waits in a queue but STARTED. -/
theorem resetSatisfiesTheLaws : Obligations.ResetSatisfiesTheLaws := by
  refine ⟨State.wf_iff_ranged.2 (State.ranged_reset (pending := []) nofun 0), ?_, ?_, fun _ _ _ => rfl, fun _ => trivial, ?_⟩
  · exact ⟨by decide, by decide, by decide, nofun⟩
  · exact ⟨by decide, nofun, by decide, nofun⟩
  · exact State.agrees_of_listed ⟨nofun, nofun, nofun, nofun, by decide, nofun, .nil⟩

/-- A part just reset is well formed exactly when the commands that wait are. -/
theorem State.wf_reset (pending : List Instr) (freeCount : Nat) :
    ({ State.reset with pending := pending, freeCount := freeCount } : State).wf = pending.all Instr.wellFormed := by
  rw [Bool.eq_iff_iff, State.wf_iff_ranged, List.all_eq_true]
  exact ⟨fun h => h.commands, fun h => State.ranged_reset h freeCount⟩

/-- Settles O3: every field but the queue of commands and the counter of free bytes is the reset state's. -/
theorem hardwareResetClearsEverything : Obligations.HardwareResetClearsEverything := fun s =>
  ⟨_, rfl, rfl, rfl, rfl, rfl, rfl, rfl, rfl, fun _ => rfl, fun _ => rfl, fun _ => rfl, fun _ => rfl, fun _ => rfl,
    fun _ => rfl, fun _ => rfl, rfl, rfl, rfl, rfl, rfl, rfl, rfl, rfl, rfl, rfl, rfl,
    State.wf_reset s.pending s.freeCount⟩

/-! ### The absent pulse (R13) -/

/-- Every command but the reset pin and the pulses acts only while the pulse is not absent, or has no effect at all. -/
theorem exec_of_absent {loss : PulseLoss} (h : s.pulse = .absent loss) {c : Instr} (hreset : c ≠ .hardwareReset)
    (hfirst : c ≠ .firstFramePulse) (hboundary : ∀ cut, c ≠ .frameBoundary cut) : exec c s = .next s := by
  have habsent : s.pulse.isAbsent = true := by rw [h]; rfl
  cases c
  case hardwareReset => exact absurd rfl hreset
  case firstFramePulse => exact absurd rfl hfirst
  case frameBoundary cut => exact absurd rfl (hboundary cut)
  case framePulseAbsent => simp only [exec, execFramePulseAbsent, h]
  case lineIdle | lineCellDiscarded | managementIdle => rfl
  all_goals exact congrArg Host.Outcome.next (if_pos habsent)

/-- Settles O5. -/
theorem absentPulseFreezesThePart : Obligations.AbsentPulseFreezesThePart := by
  refine ⟨fun loss s hrunning => ?_, fun _ _ _ h => exec_of_absent h, fun loss s side highway slot habsent => ?_⟩
  · simp only [exec, execFramePulseAbsent, hrunning]
  · simp only [State.driven, habsent]

/-! ### The selection of the Report Queue (R172) -/

theorem foldl_min_level_le (q : List QueuedCell) (m : Nat) :
    q.foldl (fun m c => min m c.level) m ≤ m ∧ ∀ c ∈ q, q.foldl (fun m c => min m c.level) m ≤ c.level := by
  induction q generalizing m with
  | nil => exact ⟨le_rfl, nofun⟩
  | cons d q ih =>
    obtain ⟨hstart, hrest⟩ := ih (min m d.level)
    refine ⟨hstart.trans (min_le_left _ _), fun c hc => ?_⟩
    rcases List.mem_cons.1 hc with rfl | hc
    · exact hstart.trans (min_le_right _ _)
    · exact hrest c hc

theorem foldl_min_level_mem (q : List QueuedCell) (m : Nat) :
    q.foldl (fun m c => min m c.level) m = m ∨ ∃ c ∈ q, c.level = q.foldl (fun m c => min m c.level) m := by
  induction q generalizing m with
  | nil => exact .inl rfl
  | cons d q ih =>
    rw [List.foldl_cons]
    rcases ih (min m d.level) with heq | ⟨c, hc, heq⟩
    · rw [heq]
      rcases min_choice m d.level with hm | hd
      · exact .inl hm
      · exact .inr ⟨d, List.mem_cons_self, hd.symm⟩
    · exact .inr ⟨c, List.mem_cons_of_mem _ hc, heq⟩

theorem lowestLevel_le {q : List QueuedCell} {c : QueuedCell} (hc : c ∈ q) : lowestLevel q ≤ c.level :=
  (foldl_min_level_le q 7).2 c hc

/-- A queue of levels 0 to 6 has a cell of its lowest level. -/
theorem exists_lowestLevel {q : List QueuedCell} (hlevels : ∀ c ∈ q, c.level ≤ 6) (hq : q ≠ []) :
    ∃ c ∈ q, c.level = lowestLevel q := by
  rcases foldl_min_level_mem q 7 with hseven | hmem
  · obtain ⟨c, hc⟩ := List.exists_mem_of_ne_nil q hq
    have hle : q.foldl (fun m c => min m c.level) 7 ≤ c.level := lowestLevel_le hc
    have := hlevels c hc
    omega
  · exact hmem

theorem selectReport_nil : selectReport [] = none := rfl

/-- The selection of a queue of levels 0 to 6 is the oldest cell of the lowest level (R172). -/
theorem selectReport_selects {q : List QueuedCell} (hlevels : ∀ c ∈ q, c.level ≤ 6) (hq : q ≠ []) :
    ∃ c rest, selectReport q = some (c.cell, rest) ∧ SelectedFrom q c rest := by
  obtain ⟨d, hd, hlowest⟩ := exists_lowestLevel hlevels hq
  obtain ⟨c, hfind⟩ := Option.isSome_iff_exists.1
    (List.find?_isSome (p := fun c => decide (c.level = lowestLevel q)).2 ⟨d, hd, decide_eq_true hlowest⟩)
  obtain ⟨hc, before, after, hsplit, hbefore⟩ := List.find?_eq_some_iff_append.1 hfind
  have hlevel : c.level = lowestLevel q := of_decide_eq_true hc
  have hbefore : ∀ d ∈ before, ¬ decide (d.level = lowestLevel q) = true := fun d hd => by simpa using hbefore d hd
  have hmem {d : QueuedCell} (hd : d ∈ before ++ c :: after) : c.level ≤ d.level := by
    rw [hlevel]
    exact lowestLevel_le (hsplit ▸ hd)
  refine ⟨c, before ++ after, ?_, before, after, hsplit, rfl, fun d hd => ?_, fun d hd => hmem (by simp [hd])⟩
  · have herased : q.eraseP (fun d => decide (d.level = lowestLevel q)) = before ++ after := by
      generalize lowestLevel q = lowest at hc hbefore ⊢
      rw [hsplit, List.eraseP_append_right _ hbefore, List.eraseP_cons_of_pos (p := fun d : QueuedCell => decide (d.level = lowest)) hc]
    simp only [selectReport, hfind, Option.map_some, herased]
  · have hne : d.level ≠ c.level := by simpa [hlevel] using hbefore d hd
    exact lt_of_le_of_ne (hmem (List.mem_append_left _ hd)) hne.symm

/-! ### The takes of the outbound cells (R7, R172, R173) -/

theorem Highway.takeCell_eq (x : Highway) (cut : Bool) :
    x.takeCell cut = if cut = true ∧ x.sending ≠ .idle then x else x.sent := rfl

theorem Highway.takeCell_false (x : Highway) : x.takeCell false = x.sent := if_neg fun h => nomatch h.1

theorem State.sendReport_frame (s : State) (cut : Bool) :
    s.sendReport cut =
      { s with
        reportQueue := (s.sendReport cut).reportQueue, reportSending := (s.sendReport cut).reportSending
        reportPause := (s.sendReport cut).reportPause } := by
  unfold State.sendReport
  split
  · rfl
  · split <;> rfl

theorem State.sendReport_again {cut : Bool} (h : cut = true ∧ s.reportSending ≠ .idle) : s.sendReport cut = s := if_pos h

/-- A take that is not the cell of a cut-short frame again takes the selection, or an idle cell. -/
theorem State.sendReport_takes (hlevels : ∀ c ∈ s.reportQueue, c.level ≤ 6) {cut : Bool}
    (h : ¬ (cut = true ∧ s.reportSending ≠ .idle)) : TakesReport s (s.sendReport cut) := by
  rw [State.sendReport, if_neg h]
  by_cases hempty : s.reportQueue = []
  · simp only [hempty, selectReport_nil]
    exact .inl ⟨hempty, rfl, rfl, rfl⟩
  · obtain ⟨c, rest, hselect, hselected⟩ := selectReport_selects hlevels hempty
    simp only [hselect]
    exact .inr ⟨c, hselected, rfl, rfl⟩

/-- The cells of several highways, each taken once. -/
theorem State.highway_forEach_sendLine (s : State) {indices : List Nat} (hnodup : indices.Nodup) (h : Nat) :
    (s.forEach indices (fun s h => s.sendLine h false)).highway h =
      if h ∈ indices then (s.highway h).sent else s.highway h := by
  induction indices generalizing s with
  | nil => rfl
  | cons i indices ih =>
    obtain ⟨hi, hrest⟩ := List.nodup_cons.1 hnodup
    rw [State.forEach_cons, ih _ hrest, State.sendLine, Highway.takeCell_false]
    by_cases hh : h = i
    · subst hh
      rw [if_neg hi, State.highway_setHighway_self, if_pos List.mem_cons_self]
    · simp [State.highway_setHighway_other _ _ hh, hh]

theorem State.forEach_sendLine_frame (s : State) (indices : List Nat) :
    s.forEach indices (fun s h => s.sendLine h false) =
      { s with highways := (s.forEach indices (fun s h => s.sendLine h false)).highways } := by
  refine State.forEach_keeps (P := fun t => t = { s with highways := t.highways }) (fun t i ht => ?_) indices rfl
  conv_lhs => rw [ht]
  rfl

/-! ### The first frame pulse (R2, R7, R14) -/

theorem State.Ranged.of_wf (h : s.wf = true) : s.Ranged := State.wf_iff_ranged.1 h

/-- The line cells of the first frame have been taken. -/
def State.firstLines (s : State) : State :=
  ({ s with pulse := .running } : State).forEach (List.range 4) (fun s h => s.sendLine h false)

theorem State.firstPulse_eq (s : State) : s.firstPulse = s.firstLines.sendReport false := rfl

theorem State.exists_firstLines (s : State) :
    ∃ highways, s.firstLines = { s with pulse := .running, highways := highways } :=
  ⟨_, State.forEach_sendLine_frame _ _⟩

theorem State.firstPulse_frame (s : State) :
    s.firstPulse =
      { s with
        pulse := .running, highways := s.firstPulse.highways, reportQueue := s.firstPulse.reportQueue
        reportPause := s.firstPulse.reportPause, reportSending := s.firstPulse.reportSending } := by
  obtain ⟨highways, hlines⟩ := s.exists_firstLines
  rw [State.firstPulse_eq, hlines, State.sendReport_frame]

theorem State.highway_firstPulse (s : State) (h : Nat) :
    s.firstPulse.highway h = if h < 4 then (s.highway h).sent else s.highway h := by
  rw [State.firstPulse_eq, State.sendReport_frame]
  exact (State.highway_forEach_sendLine _ List.nodup_range h).trans (by simp only [List.mem_range]; rfl)

theorem State.firstPulse_takes (hlevels : ∀ c ∈ s.reportQueue, c.level ≤ 6) : TakesReport s s.firstPulse := by
  obtain ⟨highways, hlines⟩ := s.exists_firstLines
  rw [State.firstPulse_eq, hlines]
  exact State.sendReport_takes (s := { s with pulse := .running, highways := highways }) hlevels
    (fun h => nomatch h.1)

theorem exec_firstFramePulse (h : s.pulse = .awaiting) : exec .firstFramePulse s = .next s.firstPulse := by
  simp only [exec, execFirstFramePulse, State.framePulse, h]

/-- The first frame of a part just reset: STARTED is its management cell, and every record of a position is as at
reset. -/
theorem State.firstPulse_reset (pending : List Instr) (freeCount : Nat) :
    ∃ highways, ({ State.reset with pending := pending, freeCount := freeCount } : State).firstPulse =
      { State.reset with
        pending := pending, freeCount := freeCount, pulse := .running, highways := highways, reportQueue := []
        reportSending := .started } :=
  ⟨_, rfl⟩

/-- Settles O4: no cell waits to be sent again, so each take is the oldest cell of its queue, or the selection. -/
theorem firstPulseBeginsFrame : Obligations.FirstPulseBeginsFrame := by
  constructor
  · intro s hwf hawaiting
    refine ⟨_, exec_firstFramePulse hawaiting, s.highway_firstPulse, ?_, s.firstPulse_frame⟩
    exact s.firstPulse_takes (State.Ranged.of_wf hwf).levels
  · intro s t ht
    obtain rfl := Host.Outcome.next.inj ht
    obtain ⟨highways, hfirst⟩ := State.firstPulse_reset s.pending s.freeCount
    refine ⟨_, exec_firstFramePulse rfl, ?_⟩
    rw [hfirst]
    refine ⟨rfl, rfl, rfl, fun side highway slot hslot => ?_⟩
    cases side <;> exact if_pos hslot

/-! ### The Second Count (R9) -/

theorem exec_frameBoundary_of_quiet (hquiet : s.quiet) (hpulse : s.pulse ≠ .awaiting) (early : Bool) :
    exec (.frameBoundary early) s = .next (s.crossBoundary (s.cutsShort early)) := by
  simp only [exec, execFrameBoundary, State.framePulse]
  split
  · next hawaiting => exact absurd hawaiting hpulse
  · rw [State.finishBoundary_of_quiet hquiet]
  · rw [State.finishBoundary_of_quiet hquiet]

/-- Settles O7: the boundary at prescale 7999 leaves it there and owes the advance, which returns it to 0. -/
theorem secondCountsEightThousandFrames : Obligations.SecondCountsEightThousandFrames := by
  refine ⟨fun s hpulsed => ⟨fun hdue => ?_, fun hidle => ?_⟩, fun n s hn hwf hprescale hquiet hrunning => ?_⟩
  · rw [exec_secondCountAdvance hpulsed, State.takeSecond_due hdue]
  · rw [exec_secondCountAdvance hpulsed, State.takeSecond_idle hidle]
  · have hboundary := exec_frameBoundary_of_quiet hquiet (by rw [hrunning]; nofun) false
    refine ⟨_, _, hboundary, exec_secondCountAdvance rfl, ?_⟩
    by_cases hlast : s.framePrescale = 7999
    · rw [State.takeSecond_due (decide_eq_true hlast)]
      refine ⟨?_, ?_, ?_⟩
      · have hone : (n + 1) / 8000 = 1 := by omega
        rw [hone]
        exact BitVec.toNat_add _ _
      · show 0 = (n + 1) % 8000
        omega
      · exact ⟨fun _ => by omega, fun _ => decide_eq_true hlast⟩
    · rw [State.takeSecond_idle (decide_eq_false hlast)]
      refine ⟨?_, ?_, ?_⟩
      · have hzero : (n + 1) / 8000 = 0 := by omega
        rw [hzero, Nat.add_zero, Nat.mod_eq_of_lt s.secondCount.isLt]
        rfl
      · show prescaleAfter s.framePrescale = (n + 1) % 8000
        rw [prescaleAfter, if_neg hlast]
        omega
      · exact ⟨fun hdue => absurd (of_decide_eq_true hdue) hlast, fun _ => absurd (by omega) hlast⟩

end Sys2Proof.Machine
end

section
/-! What leaves at a boundary and what the slots of a frame carry (R4, R7), and the layouts of the outbound cells (R165,
R171, R174 to R176). -/

namespace Sys2Proof.Machine

variable {s t : State}

/-! ### The takes at a boundary (R7) -/

theorem exec_lineReplySend (h : s.pulsed) (i : Fin 4) : exec (.lineReplySend i) s = .next (s.takeLineCell i.val) :=
  State.whilePulsed_of_pulsed h _

theorem exec_reportSend (h : s.pulsed) : exec .reportSend s = .next s.takeReport := State.whilePulsed_of_pulsed h _

theorem State.takeLineCell_due {i : Nat} (h : i ∈ s.boundary.lineDue) :
    s.takeLineCell i =
      ({ s with boundary := { s.boundary with lineDue := s.boundary.lineDue.erase i } } : State).setHighway i
        (if s.boundary.cutShort = true ∧ (s.highway i).sending ≠ .idle then s.highway i else (s.highway i).sent) :=
  if_pos h

/-- The state in which the take of the management cell has been struck from what the boundary owes. -/
def State.reportStruck (s : State) : State := { s with boundary := { s.boundary with reportDue := false } }

theorem State.takeReport_due (h : s.boundary.reportDue = true) :
    s.takeReport = s.reportStruck.sendReport s.boundary.cutShort :=
  if_pos h

/-- What the management channel takes at a boundary (R7, R172, R173). -/
theorem State.sendReport_outcome (hlevels : ∀ c ∈ s.reportQueue, c.level ≤ 6) (cut : Bool) :
    if cut = true ∧ s.reportSending ≠ .idle then
      (s.sendReport cut).reportQueue = s.reportQueue ∧ (s.sendReport cut).reportSending = s.reportSending ∧
        (s.sendReport cut).reportPause = s.reportPause
    else TakesReport s (s.sendReport cut) := by
  split
  · next hagain =>
    rw [State.sendReport_again hagain]
    exact ⟨rfl, rfl, rfl⟩
  · next hfresh => exact State.sendReport_takes hlevels hfresh

/-! ### The slots of a frame (R4, R7) -/

theorem LineCell.bytes_length (c : LineCell) : c.bytes.length = 8 := by
  unfold LineCell.bytes
  split <;> exact eightBytes_length _

theorem OutCell.bytes_length (c : OutCell) : c.bytes.length = 8 := by
  cases c <;> exact eightBytes_length _

theorem getElem?_eq_some_getD {bytes : List Byte} {k : Nat} (hk : k < bytes.length) :
    bytes[k]? = some (bytes.getD k 0) := by
  rw [List.getD_eq_getElem _ _ hk, List.getElem?_eq_getElem hk]

theorem State.driven_line_speech (h : s.pulse = .running) {slot : Nat} (hslot : slot < 120) (i : Nat) :
    s.driven .line i slot = (s.position (positionOf i slot)).lineSending := by
  simp only [State.driven, h, if_pos hslot]

theorem State.driven_switch_speech (h : s.pulse = .running) {slot : Nat} (hslot : slot < 120) (i : Nat) :
    s.driven .switch i slot = (s.position (positionOf i slot)).switchSending := by
  simp only [State.driven, h, if_pos hslot]

theorem State.driven_line_cell (h : s.pulse = .running) (i k : Nat) :
    s.driven .line i (120 + k) = (s.highway i).sending.bytes.getD k 0 := by
  simp only [State.driven, h, if_neg (Nat.not_lt.2 (Nat.le_add_right 120 k)), Nat.add_sub_cancel_left]

theorem State.driven_switch_cell (h : s.pulse = .running) (k : Nat) :
    s.driven .switch 0 (120 + k) = s.reportSending.bytes.getD k 0 := by
  simp only [State.driven, h, if_neg (Nat.not_lt.2 (Nat.le_add_right 120 k)), Nat.add_sub_cancel_left, if_true]

theorem State.driven_switch_idle (h : s.pulse = .running) {i slot : Nat} (hi : i ≠ 0) (hslot : 120 ≤ slot) :
    s.driven .switch i slot = 255 := by
  simp only [State.driven, h, if_neg (Nat.not_lt.2 hslot), if_neg hi]

/-! ### Fields (R174) -/

theorem field1_map_toNat {n : Nat} (h : n < 256) : (field1 n).map BitVec.toNat = [n] := by
  simp only [field1, List.map_cons, List.map_nil, BitVec.toNat_ofNat, List.cons.injEq, and_true]
  omega

theorem field2_map_toNat {n : Nat} (h : n < 65536) : (field2 n).map BitVec.toNat = [n / 256, n % 256] := by
  simp only [field2, List.map_cons, List.map_nil, BitVec.toNat_ofNat, List.cons.injEq, and_true]
  omega

theorem field3_map_toNat {n : Nat} (h : n < 16777216) :
    (field3 n).map BitVec.toNat = [n / 65536, n / 256 % 256, n % 256] := by
  simp only [field3, List.map_cons, List.map_nil, BitVec.toNat_ofNat, List.cons.injEq, and_true]
  omega

theorem field4_map_toNat {n : Nat} (h : n < 4294967296) :
    (field4 n).map BitVec.toNat = [n / 16777216, n / 65536 % 256, n / 256 % 256, n % 256] := by
  simp only [field4, List.map_cons, List.map_nil, BitVec.toNat_ofNat, List.cons.injEq, and_true]
  omega

/-! ### Layouts (R165, R171, R175, R176) -/

/-- A table of codes gives the byte of each value listed in it. -/
theorem field1_of_listed {α : Type} {code : α → Nat} {table : List (α × Byte)}
    (htable : ∀ x ∈ table, field1 (code x.1) = [x.2]) {a : α} {b : Byte} (h : (a, b) ∈ table) :
    field1 (code a) = [b] :=
  htable _ h

theorem flagCode_listed : ∀ x ∈ [(false, (0 : Byte)), (true, 1)], field1 (flagCode x.1) = [x.2] := by
  simp [flagCode, field1]

theorem halfCode_listed : ∀ x ∈ [(Half.low, (0 : Byte)), (.high, 1)], field1 (halfCode x.1) = [x.2] := by
  simp [halfCode, field1]

/-- Settles O9: each take is its equation, each slot its case of `State.driven`, and each layout the fields that it
lists. -/
theorem outboundCellsLeaveAtBoundary : Obligations.OutboundCellsLeaveAtBoundary := by
  refine ⟨fun h s hpulsed => ⟨fun hdue => ?_, fun hidle => ?_⟩, fun s hwf hpulsed => ⟨fun hdue => ?_, fun hidle => ?_⟩,
    fun s hrunning => ⟨fun h slot hslot => ?_, fun h k hk => ?_, fun h slot hh hslot => ?_⟩, ?_, ?_, ?_, ?_⟩
  · rw [exec_lineReplySend hpulsed, State.takeLineCell_due hdue]
  · rw [exec_lineReplySend hpulsed, State.takeLineCell_idle hidle]
  · refine ⟨_, exec_reportSend hpulsed, ?_, ?_⟩
    · rw [State.takeReport_due hdue]
      exact s.reportStruck.sendReport_outcome (State.Ranged.of_wf hwf).levels _
    · rw [State.takeReport_due hdue, State.sendReport_frame]
      rfl
  · rw [exec_reportSend hpulsed, State.takeReport_idle hidle]
  · exact ⟨State.driven_line_speech hrunning hslot h, State.driven_switch_speech hrunning hslot h⟩
  · rw [State.driven_line_cell hrunning, State.driven_switch_cell hrunning]
    exact ⟨getElem?_eq_some_getD ((LineCell.bytes_length _).symm ▸ hk),
      getElem?_eq_some_getD ((OutCell.bytes_length _).symm ▸ hk)⟩
  · exact State.driven_switch_idle hrunning hh hslot
  · exact ⟨fun _ => field1_map_toNat, fun _ => field2_map_toNat, fun _ => field3_map_toNat, fun _ => field4_map_toNat⟩
  · refine ⟨rfl, fun slot => ⟨fun _ => rfl, fun _ => rfl, fun _ => rfl, fun reason code n hreason => ?_,
      fun cause code hcause => ?_⟩⟩
    · rw [LineCell.bytes, field1_of_listed (code := RejectReason.code) (by decide) hreason]
      rfl
    · rw [LineCell.bytes, field1_of_listed (code := LineLapseCause.code) (by decide) hcause]
      rfl
  · refine ⟨rfl, rfl, fun tag => ⟨fun _ _ _ _ _ _ => rfl, fun kind reason code hreason => ?_, fun command code e hcommand => ?_,
      fun half h complete f i hhalf hcomplete => ?_, fun _ _ _ => ⟨rfl, rfl⟩, fun _ _ _ => rfl,
      fun wasOpen f j hopen => ?_, fun _ => rfl, fun direction code p gain hdirection => ?_, fun _ => rfl,
      fun _ _ => rfl, fun before code c hbefore => ?_, fun _ _ => rfl, fun scope code hscope => ?_⟩⟩
    · rw [OutCell.bytes, field1_of_listed (code := Reason.code) (by decide) hreason]
      rfl
    · rw [OutCell.bytes, Accepted.kindCode, field1_of_listed (code := EntryCommand.code) (by decide) hcommand]
      rfl
    · have hh : field1 (halfCode half) = [h] := field1_of_listed halfCode_listed hhalf
      have hf : field1 (flagCode complete) = [f] := field1_of_listed flagCode_listed hcomplete
      rw [OutCell.bytes, OutCell.bytes, Accepted.bytes, Accepted.bytes, hh, hf]
      exact ⟨rfl, rfl⟩
    · rw [OutCell.bytes, Accepted.bytes, field1_of_listed (code := flagCode) flagCode_listed hopen]
      rfl
    · rw [OutCell.bytes, Accepted.bytes, field1_of_listed (code := Direction.code) (by decide) hdirection]
      rfl
    · rw [OutCell.bytes, Accepted.bytes, field1_of_listed (code := PlayoutStatus.code) (by decide) hbefore]
      rfl
    · rw [OutCell.bytes, Accepted.bytes, field1_of_listed (code := Scope.code) (by decide) hscope]
      rfl
  · refine ⟨fun scope code n hscope => ?_, fun _ _ _ => rfl, fun cause code j p g h hcause => ?_,
      fun half code i hhalf => ?_, fun _ _ _ => rfl, fun cause code j p e hcause => ?_, fun _ _ _ => rfl,
      fun cause code e p hcause => ?_, fun _ _ _ => ⟨rfl, rfl⟩,
      fun kind reason result k r x e p hkind hreason hresult => ?_, fun renew f e p hrenew => ?_, fun _ _ => rfl,
      fun _ _ => rfl, fun _ _ _ _ => rfl, fun reason code j p g n hreason => ?_, fun _ _ _ _ => ⟨rfl, rfl, rfl⟩,
      fun _ _ _ => rfl⟩
    · rw [OutCell.bytes, Report.bytes, field1_of_listed (code := Scope.code) (by decide) hscope]
      rfl
    · rw [OutCell.bytes, Report.bytes, field1_of_listed (code := KeyMissCause.code) (by decide) hcause]
      rfl
    · rw [OutCell.bytes, OutCell.bytes, Report.bytes, Report.bytes, field1_of_listed (code := halfCode) halfCode_listed hhalf]
      exact ⟨rfl, rfl⟩
    · rw [OutCell.bytes, Report.bytes, field1_of_listed (code := CloseCause.code) (by decide) hcause]
      rfl
    · rw [OutCell.bytes, Report.bytes, field1_of_listed (code := ReportLapseCause.code) (by decide) hcause]
      rfl
    · rw [OutCell.bytes, Report.bytes, field1_of_listed (code := CandidateKind.code) (by decide) hkind,
        field1_of_listed (code := RejectedReason.code) (by decide) hreason,
        field1_of_listed (code := RejectedResult.code) (by decide) hresult]
      rfl
    · rw [OutCell.bytes, Report.bytes, field1_of_listed (code := flagCode) flagCode_listed hrenew]
      rfl
    · rw [OutCell.bytes, Report.bytes, field1_of_listed (code := SkipReason.code) (by decide) hreason]
      rfl

end Sys2Proof.Machine
end

section
/-! The deadlines: what each of them does at the count that reaches it, and that nothing happens at another
(R10, R11, R77, R86, R87, R108, R110, R111). -/

namespace Sys2Proof.Machine

variable {s t : State} {e p : Nat}

/-! ### The frame deadlines (R77, R86, R87) -/

theorem exec_holdOffDeadline (h : s.pulsed) (p : Fin 480) : exec (.holdOffDeadline p) s = .next (s.takeHoldOff p.val) :=
  State.whilePulsed_of_pulsed h _

theorem exec_answerDeadline (h : s.pulsed) (e : Fin 1024) :
    exec (.answerDeadline e) s = .next (s.takeAnswerDeadline e.val) :=
  State.whilePulsed_of_pulsed h (fun s => s.takeAnswerDeadline e.val)

theorem State.takeHoldOff_due (h : (s.position p).holdOff = some s.frameCount) :
    s.takeHoldOff p = s.setPosition p { s.position p with holdOff := none } :=
  if_pos h

theorem State.takeAnswerDeadline_due {c : Candidate} (hc : (s.entry e).candidate = some c)
    (hstage : c.stage = .awaiting s.frameCount) : s.takeAnswerDeadline e = s.answerTimeout e c := by
  simp only [State.takeAnswerDeadline, hc]
  exact if_pos hstage

/-- A candidate that awaits its ANSWER has no item to void. -/
theorem State.dropCandidate_awaiting {c : Candidate} {deadline : FrameNumber} (hc : (s.entry e).candidate = some c)
    (hstage : c.stage = .awaiting deadline) : s.dropCandidate e = s.removeCandidate e c.position := by
  simp only [State.dropCandidate, hc, hstage]

/-- What ending an admission with its candidate does (R58, R63, R120). -/
theorem State.HomeTied.dropAndEnd (h : s.HomeTied e p) (cause : CloseCause) (state : EntryState) :
    AdmissionEndedTelling s ((s.dropCandidate e).endAdmission e cause state) e p state s (s.reportClosed s e p cause) :=
  s.dropAndEnd_spec e p cause state h.home h.call h.context

/-- The answer deadline of a RENEW ends the admission (R87). -/
theorem State.answerTimeout_renew (hagrees : s.agrees) {c : Candidate} {deadline : FrameNumber}
    (hc : (s.entry e).candidate = some c) (hstage : c.stage = .awaiting deadline) (hkind : c.kind = .renew) :
    AdmissionEndedTelling s (s.answerTimeout e c) e c.position .absent (s.replyTo c.position (.reject .timeout 0))
      ((s.reportClosed s e c.position .renewTimeout).report (.lapsed e c.position .renewTimeout)) := by
  obtain ⟨-, hhome⟩ := hagrees.home_of_renew hc hkind
  have hended := (hagrees.homeTied hhome).dropAndEnd .renewTimeout .absent
  rw [State.dropCandidate_awaiting hc hstage] at hended
  simp only [State.answerTimeout, hkind]
  exact (hended.replyTo _ _).report (s.reportClosed_settings e c.position _).symm _

theorem State.answerTimeout_of_ne_renew {c : Candidate} (hkind : c.kind ≠ .renew) :
    s.answerTimeout e c = (s.candidateLeft e c.position).replyTo c.position (.reject .timeout 0) := by
  cases hk : c.kind with
  | first | move => simp only [State.answerTimeout, hk, State.removeCandidate_eq]
  | renew => exact absurd hk hkind

/-- Settles O21. -/
theorem frameDeadlinesAct : Obligations.FrameDeadlinesAct := by
  refine ⟨fun p s hpulsed => ⟨fun hdue => ?_, fun hother => ?_⟩,
    fun e s hpulsed hagrees => ⟨fun c hc hstage hkind => ?_, fun c hc hstage hkind => ?_, fun hother => ?_⟩⟩
  · rw [exec_holdOffDeadline hpulsed, State.takeHoldOff_due hdue]
  · rw [exec_holdOffDeadline hpulsed, State.takeHoldOff_idle hother]
  · rw [exec_answerDeadline hpulsed, State.takeAnswerDeadline_due hc hstage, State.answerTimeout_of_ne_renew hkind]
  · refine ⟨_, exec_answerDeadline hpulsed e, ?_⟩
    rw [State.takeAnswerDeadline_due hc hstage]
    exact State.answerTimeout_renew hagrees hc hstage hkind
  · rw [exec_answerDeadline hpulsed, State.takeAnswerDeadline_idle hother]

/-! ### The seconds deadlines (R108, R110, R111) -/

theorem exec_refreshLapse (h : s.pulsed) (e : Fin 1024) : exec (.refreshLapse e) s = .next (s.takeRefresh e.val) :=
  State.whilePulsed_of_pulsed h _

theorem exec_rechallengeDeadline (h : s.pulsed) (e : Fin 1024) :
    exec (.rechallengeDeadline e) s = .next (s.takeRechallenge e.val) :=
  State.whilePulsed_of_pulsed h _

theorem State.takeRefresh_due (h : (s.entry e).refresh = some s.secondCount) : s.takeRefresh e = s.lapse e := if_pos h

/-- A lapse ends the admission (R108). -/
theorem State.HomeTied.lapse (h : s.HomeTied e p) :
    AdmissionEndedTelling s (s.lapse e) e p .absent (s.replyTo p (.lapsed .timeout))
      ((s.reportClosed s e p .lapsed).report (.lapsed e p .timeout)) := by
  simp only [State.lapse, h.home]
  exact ((h.dropAndEnd .lapsed .absent).replyTo _ _).report (s.reportClosed_settings e p _).symm _

theorem State.takeRechallenge_due (h : (s.entry e).rechallenge = some s.secondCount)
    (hhome : (s.entry e).home = some p) : s.takeRechallenge e = s.rechallengeAt e p := by
  simp only [State.takeRechallenge, if_pos h, hhome]

theorem State.rechallengeBlocked_iff :
    s.rechallengeBlocked e p = true ↔
      (s.entry e).candidate ≠ none ∨ (s.position p).pending ≠ none ∨ s.verifyPause = true := by
  simp [State.rechallengeBlocked, Option.isSome_iff_ne_none, or_assoc]

/-- Settles O22. -/
theorem secondsDeadlinesAct : Obligations.SecondsDeadlinesAct := by
  refine ⟨fun e s hpulsed hagrees => ⟨fun p hdue hhome => ?_, fun hother => ?_⟩,
    fun e s hpulsed => ⟨fun p hdue hhome => ⟨fun hblocked => ?_, fun hcandidate hpending hpause => ?_⟩, fun hother => ?_⟩⟩
  · refine ⟨_, exec_refreshLapse hpulsed e, ?_⟩
    rw [State.takeRefresh_due hdue]
    exact (hagrees.homeTied hhome).lapse
  · rw [exec_refreshLapse hpulsed, State.takeRefresh_idle hother]
  · rw [exec_rechallengeDeadline hpulsed, State.takeRechallenge_due hdue hhome, State.rechallengeAt,
      if_pos (State.rechallengeBlocked_iff.2 hblocked)]
    rfl
  · have hfree : ¬ s.rechallengeBlocked e.val p = true := by
      simp [State.rechallengeBlocked, hcandidate, hpending, hpause]
    rw [exec_rechallengeDeadline hpulsed, State.takeRechallenge_due hdue hhome, State.rechallengeAt, if_neg hfree,
      State.createCandidate]
    simp only [State.entry_setEntry_self, State.setEntry_setEntry]
    rfl
  · rw [exec_rechallengeDeadline hpulsed, State.takeRechallenge_idle hother]

end Sys2Proof.Machine
end

section
/-! The speech paths outside the receive side: the effective treatment of a position, and the upstream arrival
(R34, R38 to R45, R131). -/

namespace Sys2Proof.Machine

variable {s t v : State} {p j : Nat} {a : Arrival} {call : Call}

/-! ### The effective treatment (R38) -/

/-- The effective treatment that a requested treatment is at a position with an owner and without a call (R38). -/
def Treatment.outsideCall : Treatment → Effective
  | .clear => .clear
  | .mute => .mute
  | .tone => .tone
  | .lineLoop => .lineLoop
  | .switchLoop => .switchLoop

/-- The shape that a requested treatment without a loop gives to a scrambled call (R38). -/
def Treatment.shape : Treatment → Shape
  | .mute => .mute
  | .tone => .tone
  | .clear | .lineLoop | .switchLoop => .clear

theorem State.effective_loop (h : (s.position p).requested.isLoop = true) :
    s.effective p = (s.position p).requested.outsideCall := by
  unfold State.effective
  cases hr : (s.position p).requested with
  | lineLoop | switchLoop => rfl
  | clear | mute | tone => rw [hr] at h; nomatch h

theorem State.effective_unlooped (h : (s.position p).requested.isLoop = false) :
    s.effective p = s.unloopedTreatment p (s.position p).requested.outsideCall (s.position p).requested.shape := by
  unfold State.effective
  cases hr : (s.position p).requested with
  | clear | mute | tone => rfl
  | lineLoop | switchLoop => rw [hr] at h; nomatch h

theorem State.effective_pending (hloop : (s.position p).requested.isLoop = false) (howner : (s.position p).owner = none)
    (hpending : (s.position p).pending ≠ none) : s.effective p = .pending := by
  obtain ⟨e, hpending⟩ := Option.ne_none_iff_exists'.1 hpending
  simp only [State.effective_unlooped hloop, State.unloopedTreatment, howner, hpending]

theorem State.effective_deserted (hloop : (s.position p).requested.isLoop = false)
    (howner : (s.position p).owner = none) (hpending : (s.position p).pending = none) : s.effective p = .mute := by
  simp only [State.effective_unlooped hloop, State.unloopedTreatment, howner, hpending]

theorem State.callAt_of_noCallAt (h : s.noCallAt p) : s.callAt p = none := by
  unfold State.callAt
  cases hj : (s.position p).context with
  | none => rfl
  | some j => simp [h j hj]

theorem State.effective_owned (hloop : (s.position p).requested.isLoop = false) (howner : (s.position p).owner ≠ none)
    (hcall : s.noCallAt p) : s.effective p = (s.position p).requested.outsideCall := by
  obtain ⟨e, howner⟩ := Option.ne_none_iff_exists'.1 howner
  simp only [State.effective_unlooped hloop, State.unloopedTreatment, howner, State.ownedTreatment,
    State.callAt_of_noCallAt hcall]

theorem State.effective_ofInCall (h : s.inCall p j call) :
    s.effective p = .scrambled (s.position p).requested.shape j call := by
  obtain ⟨howner, hloop, hcontext, hcall⟩ := h
  obtain ⟨e, howner⟩ := Option.ne_none_iff_exists'.1 howner
  have hat : s.callAt p = some (j, call) := by simp [State.callAt, hcontext, hcall]
  simp only [State.effective_unlooped hloop, State.unloopedTreatment, howner, State.ownedTreatment, hat]

theorem State.unloopedTreatment_scrambled {plain : Effective} {shape shape' : Shape}
    (h : s.unloopedTreatment p plain shape = .scrambled shape' j call) (hplain : plain ≠ .scrambled shape' j call) :
    s.callAt p = some (j, call) := by
  unfold State.unloopedTreatment State.ownedTreatment at h
  split at h
  · split at h
    · next hat => cases h; exact hat
    · exact absurd h hplain
  · nomatch h
  · nomatch h

theorem State.context_of_effective {shape : Shape} (h : s.effective p = .scrambled shape j call) :
    (s.position p).context = some j := by
  have hat : s.callAt p = some (j, call) := by
    unfold State.effective at h
    split at h
    · nomatch h
    · nomatch h
    all_goals exact State.unloopedTreatment_scrambled h nofun
  simp only [State.callAt, Option.bind_eq_some_iff, Option.map_eq_some_iff, Prod.mk.injEq] at hat
  obtain ⟨k, hk, -, -, rfl, -⟩ := hat
  exact hk

/-- The effective treatment is read off one position and the contexts. -/
theorem State.effective_congr (howner : (t.position p).owner = (s.position p).owner)
    (hpending : (t.position p).pending = (s.position p).pending)
    (hcontext : (t.position p).context = (s.position p).context)
    (hrequested : (t.position p).requested = (s.position p).requested) (hcontexts : t.contexts = s.contexts) :
    t.effective p = s.effective p := by
  have hcall : t.callAt p = s.callAt p := by
    simp only [State.callAt, State.context, hcontext, hcontexts]
  simp only [State.effective, State.unloopedTreatment, State.ownedTreatment, howner, hpending, hrequested, hcall]

theorem State.effective_driveBoth (s : State) (p : Nat) : (s.driveBoth p).effective p = s.effective p := by
  have hkept := (Position.Kept.driveSwitch (s.position p)).trans (.driveLine _)
  obtain ⟨-, hpending⟩ := (s.position p).bonds_driveSwitch
  obtain ⟨-, hpending'⟩ := (s.position p).driveSwitch.bonds_driveLine
  refine State.effective_congr ?_ ?_ ?_ ?_ rfl
  all_goals rw [State.driveBoth, State.position_setPosition_self]
  · exact hkept.owner
  · exact hpending'.trans hpending
  · exact hkept.context
  · exact hkept.requested

/-! ### What an upstream arrival writes (R34, R39 to R45) -/

section

variable {code : Byte}

theorem State.upstream_lineLoop (h : s.effective p = .lineLoop) :
    s.upstream p code = s.setPosition p { s.position p with lineWaiting := code, switchWaiting := 255 } := by
  simp [State.upstream, h, State.toLine, State.toSwitch]

theorem State.upstream_switchLoop (h : s.effective p = .switchLoop) :
    s.upstream p code = s.setPosition p { s.position p with lineWaiting := 255 } := by
  simp only [State.upstream, h, State.toLine]

theorem State.upstream_silent (h : s.effective p = .pending ∨ s.effective p = .mute) :
    s.upstream p code = s.setPosition p { s.position p with switchWaiting := 255 } := by
  rcases h with h | h <;> simp only [State.upstream, h, State.toSwitch]

theorem State.upstream_gained (h : s.effective p = .clear ∨ s.effective p = .tone) :
    s.upstream p code =
      s.setPosition p
        { s.position p with
          switchWaiting := gainCode (s.position p).upGain code
          upClamps := clampsAfter (s.position p).upClamps (gainClamps (s.position p).upGain code) } := by
  rcases h with h | h <;> simp [State.upstream, h, State.toSwitch, State.countUpClamp, State.upGained]

theorem State.upstream_scrambled_mute (h : s.effective p = .scrambled .mute j call) :
    s.upstream p code =
      s.setPosition p
        { s.position p with
          switchWaiting := transmitCode s.settings.syncSpan (s.context j) call 255 } := by
  simp only [State.upstream, h, State.scrambledUp, State.toSwitch]

theorem State.upstream_scrambled_gained {shape : Shape} (hshape : shape ≠ .mute)
    (h : s.effective p = .scrambled shape j call) :
    s.upstream p code =
      s.setPosition p
        { s.position p with
          switchWaiting :=
            transmitCode s.settings.syncSpan (s.context j) call (gainCode (s.position p).upGain code)
          upClamps := clampsAfter (s.position p).upClamps (gainClamps (s.position p).upGain code) } := by
  cases shape with
  | mute => exact absurd rfl hshape
  | clear | tone => simp [State.upstream, h, State.scrambledUp, State.toSwitch, State.countUpClamp, State.upGained]

end

/-- An upstream arrival writes no more than the waiting codes and the up clamp count of its position. -/
theorem State.upstream_writes (s : State) (p : Nat) (code : Byte) : ∃ toSwitch toLine clamps,
    s.upstream p code =
      s.setPosition p { s.position p with switchWaiting := toSwitch, lineWaiting := toLine, upClamps := clamps } := by
  cases h : s.effective p with
  | lineLoop => exact ⟨_, _, _, State.upstream_lineLoop h⟩
  | switchLoop => exact ⟨_, _, _, State.upstream_switchLoop h⟩
  | pending => exact ⟨_, _, _, State.upstream_silent (.inl h)⟩
  | mute => exact ⟨_, _, _, State.upstream_silent (.inr h)⟩
  | clear => exact ⟨_, _, _, State.upstream_gained (.inl h)⟩
  | tone => exact ⟨_, _, _, State.upstream_gained (.inr h)⟩
  | scrambled shape j call =>
    cases shape with
    | mute => exact ⟨_, _, _, State.upstream_scrambled_mute h⟩
    | clear | tone => exact ⟨_, _, _, State.upstream_scrambled_gained (by nofun) h⟩

/-! ### The arrival's command (R2, R34) -/

/-- The state as an upstream arrival finds it: the slots of its position driven, or the owed arrival struck off. -/
def State.upFound (s : State) (p : Nat) : Arrival → State
  | .carried _ => s.driveBoth p
  | .supplied => s.withBoundary { s.boundary with suppliedUp := s.boundary.suppliedUp.erase p }

theorem State.position_upFound (s : State) (p : Nat) (a : Arrival) :
    (s.upFound p a).position p = (s.position p).atArrival a := by
  cases a with
  | carried code => exact State.position_setPosition_self _ _ _
  | supplied => rfl

theorem State.context_upFound (s : State) (p : Nat) (a : Arrival) (j : Nat) :
    (s.upFound p a).context j = s.context j := by
  cases a with
  | carried code => rfl
  | supplied => rfl

theorem State.settings_upFound (s : State) (p : Nat) (a : Arrival) : (s.upFound p a).settings = s.settings := by
  cases a with
  | carried code => rfl
  | supplied => rfl

theorem Position.kept_atArrival (pos : Position) (a : Arrival) : pos.Kept (pos.atArrival a) := by
  cases a with
  | carried code => exact (Position.Kept.driveSwitch pos).trans (.driveLine _)
  | supplied => exact ⟨rfl, rfl, rfl, id⟩

theorem State.noCallAt.congr (h : s.noCallAt p) (hcontext : (t.position p).context = (s.position p).context)
    (hcontexts : ∀ j, t.context j = s.context j) : t.noCallAt p := by
  intro j hj
  rw [hcontexts]
  exact h j (hcontext.symm.trans hj)

theorem State.noCallAt.upFound (h : s.noCallAt p) (a : Arrival) : (s.upFound p a).noCallAt p := by
  refine h.congr ?_ (s.context_upFound p a)
  rw [State.position_upFound]
  exact (Position.kept_atArrival _ a).context

theorem State.inCall.upFound (h : s.inCall p j call) (a : Arrival) : (s.upFound p a).inCall p j call := by
  have hkept := Position.kept_atArrival (s.position p) a
  obtain ⟨howner, hloop, hcontext, hcall⟩ := h
  unfold State.inCall
  rw [State.position_upFound, State.context_upFound, hkept.owner, hkept.requested, hkept.context]
  exact ⟨howner, hloop, hcontext, hcall⟩

theorem State.supplyBoth_idle (hup : p ∉ s.boundary.suppliedUp) (hdown : p ∉ s.boundary.suppliedDown) :
    s.supplyBoth p = s := by
  rw [State.supplyBoth, State.supplyUp_idle hup, State.supplyDown_idle hdown]

/-- The transmit advance before a carried arrival is none unless the boundary owes one to the context of a call. -/
theorem State.advanceTxAt_idle
    (h : ∀ shape j call, s.effective p = .scrambled shape j call → j ∉ s.boundary.txDue) : s.advanceTxAt p = s := by
  rcases s.advanceTxAt_cases p with heq | ⟨shape, j, call, heffective, heq⟩
  · exact heq
  · rw [heq, State.takeTx_idle (h shape j call heffective)]

/-- An upstream arrival writes its position in the state that it finds, and is marked as taken. -/
theorem exec_upstreamArrival {p : Fin 480} {pos : Position} (hpulsed : s.pulsed) (harrives : s.upArrives p.val a)
    (htx : ∀ shape j call, (s.upFound p.val a).effective p.val = .scrambled shape j call →
      a ≠ .supplied → j ∉ s.boundary.txDue)
    (hup : (s.upFound p.val a).upstream p.val (arrivalCode a) = (s.upFound p.val a).setPosition p.val pos) :
    exec (.upstreamArrival p a) s = .next (s.afterUp p.val a pos) := by
  cases a with
  | supplied =>
    have hdue : p.val ∈ s.boundary.suppliedUp := harrives
    exact (exec_suppliedUp hpulsed p).trans (congrArg Host.Outcome.next ((if_pos hdue).trans hup))
  | carried code =>
    obtain ⟨hsuppliedUp, hsuppliedDown⟩ := harrives
    have hadvanced : s.advanceTxAt p.val = s := State.advanceTxAt_idle fun shape j call heffective =>
      htx shape j call ((s.effective_driveBoth p.val).trans heffective) nofun
    refine (State.whilePulsed_of_pulsed hpulsed fun v => v.upstreamCarried p.val code).trans (congrArg _ ?_)
    have hup : (s.driveBoth p.val).upstream p.val code = (s.driveBoth p.val).setPosition p.val pos := hup
    simp only [State.upstreamCarried, State.supplyBoth_idle hsuppliedUp hsuppliedDown, hadvanced, hup]
    simp [State.driveBoth, State.afterUp]

/-- Settles O37: each effective treatment outside a call writes its record. -/
theorem upstreamOutsideCalls : Obligations.UpstreamOutsideCalls := by
  rintro p a s pos hpulsed harrives rfl
  rw [← s.position_upFound p.val a]
  have hresult {pos : Position}
      (hplain : ∀ shape j call, (s.upFound p.val a).effective p.val ≠ .scrambled shape j call)
      (hup : (s.upFound p.val a).upstream p.val (arrivalCode a) = (s.upFound p.val a).setPosition p.val pos) :=
    exec_upstreamArrival hpulsed harrives (fun shape j call h => absurd h (hplain shape j call)) hup
  refine ⟨fun hline => ?_, fun hswitch => ?_, fun hloop hquiet => ?_, fun hrequested howner hcall => ?_⟩
  · have heffective : (s.upFound p.val a).effective p.val = .lineLoop := by
      rw [State.effective_loop (by rw [hline]; rfl), hline]; rfl
    exact hresult (by rw [heffective]; nofun) (State.upstream_lineLoop heffective)
  · have heffective : (s.upFound p.val a).effective p.val = .switchLoop := by
      rw [State.effective_loop (by rw [hswitch]; rfl), hswitch]; rfl
    exact hresult (by rw [heffective]; nofun) (State.upstream_switchLoop heffective)
  · have heffective : (s.upFound p.val a).effective p.val = .pending ∨ (s.upFound p.val a).effective p.val = .mute := by
      by_cases howner : ((s.upFound p.val a).position p.val).owner = none
      · by_cases hpending : ((s.upFound p.val a).position p.val).pending = none
        · exact .inr (State.effective_deserted hloop howner hpending)
        · exact .inl (State.effective_pending hloop howner hpending)
      · obtain ⟨hcall, hmute⟩ := hquiet.resolve_left howner
        rw [State.effective_owned hloop howner (hcall.upFound a), hmute]
        exact .inr rfl
    refine hresult (fun _ _ _ h => ?_) (State.upstream_silent heffective)
    rw [h] at heffective
    exact heffective.elim nofun nofun
  · have hloop : ((s.upFound p.val a).position p.val).requested.isLoop = false := by
      rcases hrequested with h | h <;> rw [h] <;> rfl
    have heffective : (s.upFound p.val a).effective p.val = .clear ∨ (s.upFound p.val a).effective p.val = .tone := by
      rw [State.effective_owned hloop howner (hcall.upFound a)]
      exact hrequested.imp (congrArg Treatment.outsideCall) (congrArg Treatment.outsideCall)
    refine hresult (fun _ _ _ h => ?_) (State.upstream_gained heffective)
    rw [h] at heffective
    exact heffective.elim nofun nofun

end Sys2Proof.Machine
end

section
/-! The upstream arrival in a scrambled call, and the transmit advance that comes before it (R45, R131, R136 to R138). -/

namespace Sys2Proof.Machine

variable {s t v : State} {p j : Nat} {a : Arrival} {call : Call}

/-! ### The code sent (R131, R136, R138) -/

/-- What the transmit side sends, by the frame's place in its Sync Span. -/
theorem transmitCode_eq {span k : Nat} {c : Context} {clear sent : Byte} (hk : k = c.txFrame.toNat % span)
    (hburst : k < 8 → (burstBytes (c.txFrame - BitVec.ofNat 24 k) c.txGeneration)[k]? = some sent)
    (hscrambled : 8 ≤ k → sent = clear + keystream call.txKey c.txFrame) : transmitCode span c call clear = sent := by
  rcases Nat.lt_or_ge k 8 with hlt | hge
  · exact Option.some.inj ((getElem?_burstBytes_of_spanOffset hk.symm hlt call clear).symm.trans (hburst hlt))
  · rw [transmitCode_of_le (hk ▸ hge), hscrambled hge]
    rfl

theorem Treatment.shape_ne_mute {treatment : Treatment} (hmute : treatment ≠ .mute) : treatment.shape ≠ .mute := by
  cases treatment with
  | mute => exact absurd rfl hmute
  | clear | tone | lineLoop | switchLoop => nofun

/-! ### The transmit advance before a carried arrival (R131) -/

/-- The transmit side writes one context and reports. -/
theorem State.txAdvance_frame (s : State) (j : Nat) :
    (s.txAdvance j).positions = s.positions ∧ (s.txAdvance j).boundary = s.boundary :=
  State.txAdvance_keeps (P := fun v => v.positions = s.positions ∧ v.boundary = s.boundary) (fun _ _ _ hv => hv)
    (fun v r hv => by rw [State.report_frame]; exact hv) ⟨rfl, rfl⟩ j

theorem State.boundary_upstream (s : State) (p : Nat) (code : Byte) : (s.upstream p code).boundary = s.boundary := by
  obtain ⟨_, _, _, h⟩ := s.upstream_writes p code
  rw [h]
  rfl

theorem State.context_position_upstream (s : State) (p : Nat) (code : Byte) (q : Nat) :
    ((s.upstream p code).position q).context = (s.position q).context := by
  obtain ⟨_, _, _, h⟩ := s.upstream_writes p code
  rw [h, State.position_setPosition]
  split
  · next hq => rw [hq]
  · rfl

/-- A supplied arrival strikes itself off, and no other event. -/
theorem State.supplyUp_strikes (s : State) (p : Nat) :
    ∃ owed, owed ⊆ s.boundary.suppliedUp ∧ (s.supplyUp p).boundary = { s.boundary with suppliedUp := owed } := by
  by_cases h : p ∈ s.boundary.suppliedUp
  · exact ⟨_, List.erase_subset, State.boundary_supplyUp h⟩
  · rw [State.supplyUp_idle h]
    exact ⟨_, List.Subset.refl _, rfl⟩

theorem State.context_position_supplyUp (s : State) (p q : Nat) :
    ((s.supplyUp p).position q).context = (s.position q).context := by
  unfold State.supplyUp
  split
  · exact State.context_position_upstream _ p 255 q
  · rfl

/-- An advance that a boundary owes: it is struck off with no arrival added, and no position names another context. -/
theorem State.takeTx_due (hdue : j ∈ s.boundary.txDue) :
    (∃ owed, owed ⊆ s.boundary.suppliedUp ∧
      (s.takeTx j).boundary = { s.boundary with txDue := s.boundary.txDue.erase j, suppliedUp := owed }) ∧
      ∀ q, ((s.takeTx j).position q).context = (s.position q).context := by
  cases hcall : (s.context j).call with
  | none =>
    rw [State.takeTx_free hdue hcall]
    exact ⟨⟨_, List.Subset.refl _, rfl⟩, fun _ => rfl⟩
  | some call =>
    let struck := s.withTxDue (s.boundary.txDue.erase j)
    obtain ⟨hpositions, hboundary⟩ := (struck.supplyUp call.position).txAdvance_frame j
    obtain ⟨owed, howed, hstrikes⟩ := struck.supplyUp_strikes call.position
    rw [State.takeTx_open hdue hcall]
    refine ⟨⟨owed, howed, hboundary.trans hstrikes⟩, fun q => ?_⟩
    rw [State.position, hpositions]
    exact struck.context_position_supplyUp call.position q

/-- The advance is made once: an arrival after its command finds nothing left to advance. -/
theorem State.upstreamCarried_takeTx (hup : p ∉ s.boundary.suppliedUp) (hdown : p ∉ s.boundary.suppliedDown)
    (hcall : s.inCall p j call) (hnodup : s.boundary.txDue.Nodup) (code : Byte) :
    (s.takeTx j).upstreamCarried p code = s.upstreamCarried p code := by
  have ⟨_, _, hnamed, _⟩ := hcall
  by_cases hdue : j ∈ s.boundary.txDue
  · obtain ⟨⟨owed, howed, hboundary⟩, hcontext⟩ := State.takeTx_due hdue
    have hup' : p ∉ (s.takeTx j).boundary.suppliedUp := by rw [hboundary]; exact fun h => hup (howed h)
    have hdown' : p ∉ (s.takeTx j).boundary.suppliedDown := by rw [hboundary]; exact hdown
    have hbefore : s.advanceTxAt p = s.takeTx j := by
      simp only [State.advanceTxAt, State.effective_ofInCall hcall]
    have hafter : (s.takeTx j).advanceTxAt p = s.takeTx j := by
      refine State.advanceTxAt_idle fun shape k call' heffective => ?_
      have hcontext' := State.context_of_effective heffective
      rw [hcontext p, hnamed] at hcontext'
      obtain rfl := Option.some.inj hcontext'
      rw [hboundary]
      exact hnodup.not_mem_erase
    simp only [State.upstreamCarried, State.supplyBoth_idle hup hdown, State.supplyBoth_idle hup' hdown', hbefore, hafter]
  · rw [State.takeTx_idle hdue]

theorem exec_upstreamCarried (h : s.pulsed) (p : Fin 480) (code : Byte) :
    exec (.upstreamArrival p (.carried code)) s = .next (s.upstreamCarried p.val code) :=
  State.whilePulsed_of_pulsed h fun v => v.upstreamCarried p.val code

theorem EventKeeps.pulse (h : EventKeeps s t) : t.pulse = s.pulse := by
  have hfixed := h.fixed
  simp only [State.fixed, Prod.mk.injEq] at hfixed
  obtain ⟨-, -, -, -, -, -, hpulse⟩ := hfixed
  exact hpulse

theorem State.pulsed.of_eventKeeps (h : s.pulsed) (hkeeps : EventKeeps s t) : t.pulsed := by
  rw [State.pulsed, hkeeps.pulse]
  exact h

/-- Settles O39: the transmit side sends a byte of the burst or the scrambled code, by the shape of the call. -/
theorem upstreamInCall : Obligations.UpstreamInCall := by
  constructor
  · rintro p a s pos j call clear sent k hpulsed harrives hadvanced hcall rfl hmute hgained hk hburst hscrambled
    have hcode : transmitCode s.settings.syncSpan (s.context j) call clear = sent :=
      transmitCode_eq hk hburst hscrambled
    rw [← s.position_upFound p.val a] at hmute hgained ⊢
    have heffective := State.effective_ofInCall (hcall.upFound a)
    refine exec_upstreamArrival hpulsed harrives (fun shape k call' h harrival => ?_) ?_
    · rw [heffective] at h
      obtain ⟨-, rfl, -⟩ := Effective.scrambled.inj h
      exact hadvanced harrival
    · rw [← s.settings_upFound p.val a, ← s.context_upFound p.val a] at hcode
      by_cases hrequested : ((s.upFound p.val a).position p.val).requested = .mute
      · rw [hrequested] at heffective
        rw [State.upstream_scrambled_mute heffective, ← hmute hrequested, hcode,
          if_neg fun h => h.1 hrequested]
      · rw [State.upstream_scrambled_gained (Treatment.shape_ne_mute hrequested) heffective, ← hgained hrequested, hcode]
        simp only [clampsAfter, saturatingNext, ne_eq, hrequested, not_false_eq_true, true_and]
  · intro p j code s u call hpulsed hup hdown hcall hnodup hexec
    rw [exec_txFrameAdvance hpulsed] at hexec
    obtain rfl := Host.Outcome.next.inj hexec
    rw [exec_upstreamCarried hpulsed, exec_upstreamCarried (hpulsed.of_eventKeeps ((EventKeeps.refl s).takeTx j.val)),
      State.upstreamCarried_takeTx hup hdown hcall hnodup]

end Sys2Proof.Machine
end

section
/-! The downstream arrival (R34, R39 to R46, R48, R142): what it releases in a scrambled call, and the record of a position
in LINE LOOP, which an arrival does not write. -/

namespace Sys2Proof.Machine

variable {s t v x : State} {p j : Nat} {a : Arrival} {call : Call}

/-! ### LINE LOOP (R39) -/

/-- A state whose Position Table is not in canonical form: position 7 is listed before position 5. A cut-short frame owes
position 5 its downstream arrival, and both positions are in LINE LOOP. -/
def unsortedLoops : State :=
  { State.reset with
    positions := [(7, { requested := .lineLoop }), (5, { requested := .lineLoop })]
    boundary := { suppliedDown := [5] } }

/-- The positions that a state lists after a command, in the order of the list. -/
def listedPositions : Outcome → List Nat
  | .next t => t.positions.indices
  | _ => []

/-- Refutes O38: the statement asks nothing of the Position Table, and has a position in LINE LOOP written with the record
that it reads as. The arrival writes no record there, so a table that is not in canonical form stays as it is, where
the write would sort it. In a well-formed state the two agree. -/
theorem not_downstreamOutsideCalls : ¬ Obligations.DownstreamOutsideCalls := by
  rintro ⟨harrival, -⟩
  obtain ⟨hline, -⟩ := harrival 5 .supplied unsortedLoops _ rfl (List.mem_singleton.2 rfl) rfl
  have hlisted := congrArg listedPositions (hline rfl)
  have hkept : listedPositions (exec (.downstreamArrival 5 .supplied) unsortedLoops) = [7, 5] := by decide
  have hsorted : listedPositions (.next (unsortedLoops.afterDown 5 .supplied (unsortedLoops.position 5))) = [5, 7] := by
    decide
  exact absurd (hkept.symm.trans (hlisted.trans hsorted)) (by decide)

/-! ### The arrival's command (R2, R34) -/

/-- The state as a downstream arrival finds it: the slots of its position driven, or the owed arrival struck off. -/
def State.downFound (s : State) (p : Nat) : Arrival → State
  | .carried _ => s.driveBoth p
  | .supplied => s.withBoundary { s.boundary with suppliedDown := s.boundary.suppliedDown.erase p }

/-- What a context in CONTEXT LOOP takes at an arrival in place of its code (R139, R152). -/
def Position.looped (pos : Position) : Arrival → Byte
  | .carried _ => pos.switchSending
  | .supplied => 255

/-- A carried arrival marks the position of its frame. -/
def State.markTaken (s : State) (p : Nat) : Arrival → State
  | .carried _ => s.setPosition p { s.position p with downTaken := true }
  | .supplied => s

theorem State.position_downFound (s : State) (p : Nat) (a : Arrival) :
    (s.downFound p a).position p = (s.position p).atArrival a := by
  cases a with
  | carried code => exact State.position_setPosition_self _ _ _
  | supplied => rfl

theorem State.Arrives.downFound (s : State) (p : Nat) (a : Arrival) : s.Arrives p (s.downFound p a) := by
  cases a with
  | carried code => exact State.Arrives.setPosition ⟨fun _ _ => rfl, _, _, rfl⟩ _
  | supplied => exact ⟨fun _ _ => rfl, _, _, rfl⟩

theorem State.Arrives.channelCode_eq (h : s.Arrives p v) (c : Nat) : v.channelCode c = s.channelCode c := by
  obtain ⟨-, _, _, rfl⟩ := h
  rfl

theorem State.Arrives.roleCode_eq (h : s.Arrives p v) (role : Option Nat) : v.roleCode role = s.roleCode role := by
  obtain ⟨-, _, _, rfl⟩ := h
  rfl

theorem State.inCall.downFound (h : s.inCall p j call) (a : Arrival) : (s.downFound p a).inCall p j call := by
  have hkept := Position.kept_atArrival (s.position p) a
  obtain ⟨howner, hloop, hcontext, hcall⟩ := h
  unfold State.inCall
  rw [State.position_downFound, (State.Arrives.downFound s p a).context_eq, hkept.owner, hkept.requested, hkept.context]
  exact ⟨howner, hloop, hcontext, hcall⟩

/-- A downstream arrival takes effect in the state that it finds, and is marked as taken. -/
theorem exec_downstreamArrival {p : Fin 480} (hpulsed : s.pulsed) (harrives : s.downArrives p.val a) :
    exec (.downstreamArrival p a) s =
      .next (((s.downFound p.val a).downstream p.val (arrivalCode a)
        (((s.position p.val).atArrival a).looped a)).markTaken p.val a) := by
  cases a with
  | supplied =>
    have hdue : p.val ∈ s.boundary.suppliedDown := harrives
    exact (State.whilePulsed_of_pulsed hpulsed fun v => v.supplyDown p.val).trans
      (congrArg Host.Outcome.next (if_pos hdue))
  | carried code =>
    obtain ⟨hup, hdown, hplayout, hreport⟩ := harrives
    refine (State.whilePulsed_of_pulsed hpulsed fun v => v.downstreamCarried p.val code).trans (congrArg _ ?_)
    have hsending : ((s.driveBoth p.val).position p.val).switchSending =
        ((s.position p.val).atArrival (.carried code)).looped (.carried code) :=
      congrArg Position.switchSending (State.position_setPosition_self _ _ _)
    simp only [State.downstreamCarried, State.supplyBoth_idle hup hdown, State.beforeDownstream_idle hplayout hreport,
      hsending]
    rfl

/-! ### The receive side (R142) -/

/-- Whatever the decision, it writes the one context. -/
theorem State.WroteContext.decideArrival {c : Context} {r : State} (h : v.WroteContext j c r x) (call : Call) :
    ∃ c' r', v.WroteContext j c' r' (x.decideArrival j call) := by
  unfold State.decideArrival
  dsimp only
  split
  · next b _ =>
    obtain ⟨y, hy, hcheck⟩ := h.recognise call b (confirmed :=
      decide (c.rxFrame.toNat % v.settings.syncSpan = 7 ∧ b.n0 = c.rxFrame - 7)) decide_eq_true_iff
    rw [hcheck]
    exact hy.generationCheck call c.sync b.generation
  · split
    · rcases Nat.lt_or_ge (c.misses + 1) v.settings.missLimit with hbelow | hlimit
      · exact ⟨_, _, h.countMiss_below call hbelow⟩
      · exact ⟨_, _, h.countMiss_atLimit call hlimit⟩
    · exact ⟨_, _, h⟩

theorem State.receive_wroteContext (v : State) (j : Nat) (call : Call) (code : Byte) :
    ∃ c r, v.WroteContext j c r (v.receive j call code) := by
  rw [State.receive_eq]
  exact (v.wroteContext j _).decideArrival call

theorem State.WroteContext.position_eq {c : Context} {r : State} (h : v.WroteContext j c r x) (q : Nat) :
    x.position q = v.position q := by
  rw [h.eq]; rfl

theorem State.WroteContext.boundary_eq {c : Context} {r : State} (h : v.WroteContext j c r x) :
    x.boundary = v.boundary := by
  rw [h.eq]; rfl

/-! ### The release (R46, R48, R144) -/

/-- What an arrival releases, by the window, the mark of its oldest code and the receive state. -/
theorem State.releaseAt_eq {c : Context} {clear : Byte} {r : Released}
    (hshort : c.window.length < 8 → r = ⟨(s.position p).hold, (s.position p).hold, false⟩)
    (hfull : ∀ w rest, c.window = w :: rest → 8 ≤ c.window.length →
      (w.isBurst = true → r = ⟨(s.position p).hold, (s.position p).hold, false⟩) ∧
      (w.isBurst = false → c.sync = .hunt → r = ⟨s.roleCode s.settings.securingTone, (s.position p).hold, false⟩) ∧
      (w.isBurst = false → c.sync = .keyWait → r = ⟨s.roleCode s.settings.keyMissTone, (s.position p).hold, false⟩) ∧
      (w.isBurst = false → c.sync = .aligned ∨ c.sync = .freewheel →
        clear = w.code - keystream call.rxKey (c.rxFrame + 1 - 8) ∧
          r = ⟨gainCode (s.position p).downGain clear, gainCode (s.position p).downGain clear,
            gainClamps (s.position p).downGain clear⟩)) :
    s.releaseAt p c call = r := by
  unfold State.releaseAt
  split
  · next w rest hwindow =>
    split
    · next hlt => exact (hshort hlt).symm
    · next hge =>
      obtain ⟨hburst, hhunt, hkeyWait, haligned⟩ := hfull w rest hwindow (Nat.not_lt.1 hge)
      cases hmark : w.isBurst with
      | true => simp only [State.releaseCode, hmark, if_true, hburst hmark]
      | false =>
        cases hsync : c.sync with
        | hunt => simp [State.releaseCode, hmark, hsync, hhunt hmark hsync]
        | keyWait => simp [State.releaseCode, hmark, hsync, hkeyWait hmark hsync]
        | aligned =>
          obtain ⟨rfl, rfl⟩ := haligned hmark (.inl hsync)
          simp [State.releaseCode, hmark, hsync, descramble, releasedNumber]
        | freewheel =>
          obtain ⟨rfl, rfl⟩ := haligned hmark (.inr hsync)
          simp [State.releaseCode, hmark, hsync, descramble, releasedNumber]
  · next hempty => exact (hshort (by rw [hempty]; decide)).symm

/-- The position after a release: the hold sample, the code for the line and the down clamp count (R20, R46). -/
def Position.released (pos : Position) (r : Released) (line : Byte) : Position :=
  { pos with hold := r.hold, lineWaiting := line, downClamps := clampsAfter pos.downClamps r.clamped }

/-- In a call the arrival writes the released result to the position, and hands its input to the receive side. -/
theorem State.downstream_scrambled (h : s.inCall p j call) (code looped : Byte) {r : Released}
    (hr : s.releaseAt p (s.context j) call = r) :
    s.downstream p code looped =
      (s.setPosition p
        ((s.position p).released r (s.shaped p (s.position p).requested.shape r.code))).receive j call
        (s.receiveInput j code looped) := by
  simp only [State.downstream, State.effective_ofInCall h, State.scrambledDown, State.countDownClamp, hr,
    State.setPosition_setPosition, State.position_setPosition_self, Position.released]

/-- Whether the frame's downstream arrival counts as taken after an arrival: a supplied one is not the frame's own. -/
def Position.takenAfter (pos : Position) : Arrival → Bool
  | .carried _ => true
  | .supplied => pos.downTaken

theorem State.position_markTaken (s : State) (p : Nat) (a : Arrival) :
    (s.markTaken p a).position p = { s.position p with downTaken := (s.position p).takenAfter a } := by
  cases a with
  | carried code => exact State.position_setPosition_self _ _ _
  | supplied => rfl

theorem State.boundary_markTaken (s : State) (p : Nat) (a : Arrival) : (s.markTaken p a).boundary = s.boundary := by
  cases a with
  | carried code => rfl
  | supplied => rfl

theorem State.Arrives.markTaken (h : s.Arrives p v) (a : Arrival) : s.Arrives p (v.markTaken p a) := by
  cases a with
  | carried code => exact h.setPosition _
  | supplied => exact h

theorem State.WroteContext.markTaken {c : Context} {r : State} (h : v.WroteContext j c r x) (p : Nat) (a : Arrival) :
    (v.markTaken p a).WroteContext j c r (x.markTaken p a) := by
  cases a with
  | carried code =>
    rw [State.markTaken, State.markTaken, h.position_eq]
    exact h.setPosition p _
  | supplied => exact h

/-- Settles O40: the release is read off the window and the receive state that the arrival finds. -/
theorem downstreamReleasesOldest : Obligations.DownstreamReleasesOldest := by
  rintro p a s pos j call clear r hpulsed harrives hcall rfl hshort hfull
  have hfound := State.Arrives.downFound s p.val a
  have hposition := s.position_downFound p.val a
  have hrelease : (s.downFound p.val a).releaseAt p.val ((s.downFound p.val a).context j) call = r := by
    rw [hfound.context_eq]
    refine State.releaseAt_eq (clear := clear) ?_ ?_
    all_goals rw [hposition]
    · exact hshort
    · rw [hfound.roleCode_eq, hfound.roleCode_eq, hfound.settings_eq]
      exact hfull
  have hexec := exec_downstreamArrival hpulsed harrives
  rw [State.downstream_scrambled (hcall.downFound a) _ _ hrelease, hposition] at hexec
  generalize hline : (s.downFound p.val a).shaped p.val ((s.position p.val).atArrival a).requested.shape r.code = line
    at hexec
  obtain ⟨c, reports, hwritten⟩ := State.receive_wroteContext
    ((s.downFound p.val a).setPosition p.val (((s.position p.val).atArrival a).released r line)) j call
    ((s.downFound p.val a).receiveInput j (arrivalCode a) (((s.position p.val).atArrival a).looped a))
  have hmarked := hwritten.markTaken p.val a
  refine ⟨_, line, ((s.position p.val).atArrival a).takenAfter a, hexec, ((hfound.setPosition _).markTaken a).receiveFrame hmarked, fun h => ?_, fun h => ?_, fun h => ?_,
    fun h => ?_, fun h => ?_, (hmarked.position_eq p.val).trans ?_, fun h => ?_, fun h => ?_⟩
  rotate_left 5
  · rw [State.position_markTaken, State.position_setPosition_self]
    rfl
  · rw [hmarked.boundary_eq, State.boundary_markTaken, h]
    rfl
  · rw [hmarked.boundary_eq, State.boundary_markTaken]
    cases a with
    | carried code => rfl
    | supplied => exact absurd rfl h
  · rw [← hline, h]; rfl
  · rw [← hline, h]; rfl
  · rw [← hline, h, ← hfound.channelCode_eq, ← hposition]; rfl
  · rw [h]; rfl
  · cases a with
    | carried code => rfl
    | supplied => exact absurd rfl h

end Sys2Proof.Machine
end

section
/-! The pages that a READ shows (R169, R177). -/

namespace Sys2Proof.Machine

variable {s : State}

/-! ### Fields of a page (R174, R177) -/

theorem fillFree_known (n : Nat) (bytes : List Byte) : fillFree n (known bytes) = bytes := by
  induction bytes with
  | nil => rfl
  | cons b bytes ih => exact congrArg (b :: ·) ih

theorem fillFree_known_append (n : Nat) (bytes : List Byte) (rest : List PageByte) :
    fillFree n (known bytes ++ rest) = bytes ++ fillFree n rest := by
  induction bytes with
  | nil => rfl
  | cons b bytes ih => exact congrArg (b :: ·) ih

theorem openCount_known (bytes : List Byte) : openCount (known bytes) = 0 := by
  simp [openCount, known, List.countP_map]

theorem field1_toNat (b : Byte) : field1 b.toNat = [b] := by simp [field1]

/-- A one-byte field that may hold no value shows some byte then. -/
theorem fillFree_openable1_append (n : Nat) (v : Option Nat) (bytes : List Byte) :
    fillFree n (openable1 v ++ known bytes) = field1 (v.getD (Config.freeByte n).toNat) ++ bytes := by
  cases v with
  | none =>
    rw [Option.getD_none, field1_toNat]
    exact congrArg (Config.freeByte n :: ·) (fillFree_known _ _)
  | some i => exact fillFree_known_append n (field1 i) (known bytes) |>.trans (by rw [fillFree_known]; rfl)

theorem flagCode_isSome {α : Type} (o : Option α) [Decidable (o = none)] :
    flagCode o.isSome = if o = none then 0 else 1 := by
  cases o <;> simp [flagCode]

/-- A table of numbers gives the number of each value listed in it. -/
theorem numbered_of_listed {α : Type} {code : α → Nat} {table : List (α × Nat)}
    (htable : ∀ x ∈ table, code x.1 = x.2) (a : α) (n : Nat) (h : (a, n) ∈ table) : code a = n :=
  htable _ h

theorem Stage.code_eq (stage : Stage) : stage.code = if stage = .queued then 1 else 0 := by
  cases stage <;> rfl

theorem stagedCode_of_shown {c : Context} {shown : Nat} (h : c.shownStaged shown) : stagedCode c.staged = shown := by
  rcases h with ⟨hnone, rfl⟩ | ⟨k, hsome, ⟨htx, hrx, rfl⟩ | ⟨htx, rfl⟩ | ⟨htx, hrx, rfl⟩⟩
  · rw [hnone]; rfl
  · simp [hsome, stagedCode, htx, hrx]
  · simp [hsome, stagedCode, htx]
  · simp [hsome, stagedCode, htx, hrx]

theorem Context.shownRxFrame_eq {c : Context} (h : c.sync ≠ .hunt) : c.shownRxFrame = some c.rxFrame.toNat := by
  unfold Context.shownRxFrame
  cases hsync : c.sync with
  | hunt => exact absurd hsync h
  | aligned | freewheel | keyWait => rfl

/-! ### The answer to a READ (R169) -/

section

variable (h : s.inFrame) (tag : Byte) {kind size index part : Nat} (hsize : pageSize kind = some size) (hindex : index < size)

include h hsize hindex

/-- A part of known bytes is answered with them, filled to six with 0. -/
theorem exec_read_known {bytes shown : List Byte} (hpage : s.page kind index part = some (known bytes))
    (hshown : sixBytes bytes = shown) :
    exec (.read tag kind index part) s = .next (s.joinCell 0 (.answer tag shown)) := by
  rw [exec_read h, State.readPage_answers tag hsize hindex hpage, State.answerPage, State.joinCell_withFreeCount,
    fillFree_known, openCount_known, hshown]
  rw [State.joinCell_frame]
  rfl

/-- A part with open bytes is answered with free ones in their places; only the counter of free bytes moves. -/
theorem exec_read_open {page : List PageByte} {shown : List Byte} (hpage : s.page kind index part = some page)
    (hshown : sixBytes (fillFree s.freeCount page) = shown) :
    ∃ t, exec (.read tag kind index part) s = .next t ∧ SameReports t (s.joinCell 0 (.answer tag shown)) := by
  refine ⟨_, exec_read h tag kind index part, ?_⟩
  rw [State.readPage_answers tag hsize hindex hpage, State.answerPage, State.joinCell_withFreeCount, hshown]
  exact ⟨rfl, rfl, rfl⟩

end

/-! ### The obligation -/

/-- Settles O48: each part is its list of fields, and a field without a value shows a free byte or the byte named for
it. -/
theorem readShowsThePages : Obligations.ReadShowsThePages := by
  refine ⟨⟨?_, ?_, ?_, ?_, ?_, ?_⟩, fun tag s h => ⟨fun e he => ⟨?_, ?_, ?_, fun c hc => ⟨?_, ?_⟩, fun hnone => ?_⟩,
    fun p hp => ⟨?_, ?_, ?_⟩⟩, fun tag s h => ⟨fun j hj => ⟨?_, fun shown hshown => ?_, ?_, fun hsync => ?_, fun hsync => ?_⟩,
      fun g hg => ⟨?_, ?_⟩, fun c hc => ⟨?_, fun n hn => ?_, fun hendless => ?_⟩, ?_, ?_, ?_, ?_⟩⟩
  · exact numbered_of_listed (code := EntryState.code) (by decide)
  · exact numbered_of_listed (code := CandidateKind.code) (by decide)
  · exact numbered_of_listed (code := Treatment.code) (by decide)
  · exact numbered_of_listed (code := SyncState.code) (by decide)
  · exact numbered_of_listed (code := PlayoutMode.code) (by decide)
  · exact numbered_of_listed (code := PlayoutStatus.code) (by decide)
  · rw [← flagCode_isSome]
    exact exec_read_known h tag rfl (by omega) rfl rfl
  · refine ⟨(Config.freeByte s.freeCount).toNat, exec_read_open h tag rfl (by omega) rfl ?_⟩
    rw [indexField, List.append_assoc, fillFree_known_append, fillFree_openable1_append, ← flagCode_isSome]
    rfl
  · exact exec_read_known h tag rfl (by omega)
      (bytes := field2 (((s.entry e).refresh.map s.secondsLeft).getD 0) ++
        field2 (((s.entry e).rechallenge.map s.secondsLeft).getD 0)) rfl rfl
  · have hpage : s.page 2 e 0 = some (known (field1 c.kind.code ++ field1 c.stage.code ++ field2 c.position ++
        field2 ((c.stage.deadline.map s.framesLeft).getD 0))) := by
      simp only [State.page, State.extensionCandidatePage, hc]
      rfl
    rw [← Stage.code_eq]
    exact exec_read_known h tag rfl (by omega) hpage rfl
  · have hpage : s.page 2 e 1 = some (known (field3 c.challenge.toNat)) := by
      simp only [State.page, State.extensionCandidatePage, hc]
      rfl
    exact exec_read_known h tag rfl (by omega) hpage rfl
  · have hpage : s.page 2 e 0 = some (known (field1 0) ++ openable1 none ++ indexField none ++ remainingField none) := by
      simp only [State.page, State.extensionCandidatePage, hnone]
    exact ⟨Config.freeByte s.freeCount, exec_read_open h tag rfl (by omega) hpage rfl⟩
  · exact exec_read_known h tag rfl (by omega) rfl rfl
  · refine ⟨(Config.freeByte s.freeCount).toNat, exec_read_open h tag rfl (by omega) rfl ?_⟩
    rw [indexField, indexField, List.append_assoc, List.append_assoc, fillFree_known_append, fillFree_known_append,
      fillFree_openable1_append, ← flagCode_isSome]
    rfl
  · exact exec_read_known h tag rfl (by omega) rfl rfl
  · rw [← flagCode_isSome]
    exact exec_read_known h tag rfl (by omega)
      (bytes := field1 (flagCode (s.context j).call.isSome) ++ field1 (flagCode (s.context j).loop) ++
        field2 (((s.context j).call.map Call.position).getD 65535) ++
        field2 (((s.context j).call.map Call.entry).getD 65535)) rfl rfl
  · rw [← stagedCode_of_shown hshown]
    exact exec_read_known h tag rfl (by omega) rfl rfl
  · exact exec_read_known h tag rfl (by omega) rfl rfl
  · have hpage : s.page 6 j 1 = some (known (field3 (s.context j).rxFrame.toNat ++ [1])) := by
      simp only [State.page, State.contextReceivePage, Context.shownRxFrame_eq hsync]
      rfl
    exact exec_read_known h tag rfl (by omega) hpage rfl
  · have hpage : s.page 6 j 1 = some (openable3 none ++ known (field1 0)) := by
      simp only [State.page, State.contextReceivePage, Context.shownRxFrame, hsync]
      rfl
    exact ⟨_, _, _, exec_read_open h tag rfl (by omega) hpage rfl⟩
  · exact exec_read_known h tag rfl (by omega) rfl rfl
  · exact exec_read_known h tag rfl (by omega) rfl rfl
  · exact exec_read_known h tag rfl (by omega) rfl rfl
  · have hpage : s.page 8 c 1 = some (known (field1 n ++ [0] ++ field1 (s.channel c).mode.code ++
        field1 (s.channel c).status.code)) := by
      simp only [State.page, State.playoutPage, hn]
      rfl
    exact exec_read_known h tag rfl (by omega) hpage rfl
  · have hpage : s.page 8 c 1 = some (openable1 none ++ known ([1] ++ field1 (s.channel c).mode.code ++
        field1 (s.channel c).status.code)) := by
      simp only [State.page, State.playoutPage, hendless]
      rfl
    exact ⟨_, exec_read_open h tag rfl (by omega) hpage rfl⟩
  · have hpauses : ((if s.verifyPause then 1 else 0) + if s.reportPause then 2 else 0) = s.pauseCode := by
      cases hverify : s.verifyPause <;> cases hreport : s.reportPause <;> simp [State.pauseCode, flagCode, hverify, hreport]
    rw [hpauses]
    exact exec_read_known h tag rfl (by omega) rfl rfl
  · exact exec_read_known h tag rfl (by omega) rfl rfl
  · exact exec_read_known h tag rfl (by omega) rfl rfl
  · exact exec_read_known h tag rfl (by omega) rfl rfl

end Sys2Proof.Machine
end

section
/-! The arrivals that a cut-short frame owes, and the slots of a frame (R2, R34): the two supplied arrivals of a position
commute, and a later event of the position finds the same state whether or not they have been taken by their commands. -/

namespace Sys2Proof.Machine

variable {s t v x : State} {p j : Nat} {call : Call}

/-! ### What the receive side neither reads nor writes -/

/-- A change of a state that writes no context and no setting, and that it makes no difference to make before or after a
context is written or a report queued. -/
structure Apart (f : State → State) : Prop where
  context : ∀ v j, (f v).context j = v.context j
  settings : ∀ v, (f v).settings = v.settings
  setContext : ∀ v j c, f (v.setContext j c) = (f v).setContext j c
  report : ∀ v r, f (v.report r) = (f v).report r

theorem Apart.withBoundary (b : Boundary) : Apart (fun v => v.withBoundary b) where
  context _ _ := rfl
  settings _ := rfl
  setContext _ _ _ := rfl
  report v r := by
    obtain ⟨hqueue, hpause, hlost⟩ := SameReports.report (s := v.withBoundary b) (t := v) ⟨rfl, rfl, rfl⟩ rfl r
    rw [State.report_frame v, State.report_frame (v.withBoundary b), hqueue, hpause, hlost]
    rfl

theorem Apart.setPosition (p : Nat) (pos : Position) : Apart (fun v => v.setPosition p pos) where
  context _ _ := rfl
  settings _ := rfl
  setContext _ _ _ := rfl
  report v r := by
    obtain ⟨hqueue, hpause, hlost⟩ := SameReports.report (s := v.setPosition p pos) (t := v) ⟨rfl, rfl, rfl⟩ rfl r
    rw [State.report_frame v, State.report_frame (v.setPosition p pos), hqueue, hpause, hlost]
    rfl

section

variable {f : State → State} (hf : Apart f)

include hf

theorem Apart.reportStagedTaken (v : State) (j p : Nat) (g : Generation) (otherTaken : Bool) :
    f (v.reportStagedTaken j p g otherTaken) = (f v).reportStagedTaken j p g otherTaken := by
  cases otherTaken with
  | false => rfl
  | true => exact hf.report _ _

theorem Apart.enterKeyWait (v : State) (j : Nat) (call : Call) (before : SyncState) (cause : KeyMissCause) (g : Generation) :
    f (v.enterKeyWait j call before cause g) = (f v).enterKeyWait j call before cause g := by
  simp only [State.enterKeyWait, hf.context, apply_ite f, hf.report, hf.setContext]

theorem Apart.generationCheck (v : State) (j : Nat) (call : Call) (before : SyncState) (g : Generation) :
    f (v.generationCheck j call before g) = (f v).generationCheck j call before g := by
  unfold State.generationCheck
  simp only [hf.context, apply_ite f, hf.setContext, hf.enterKeyWait]
  cases (v.context j).rxTakeable with
  | none => simp only [hf.enterKeyWait]
  | some k => simp only [State.rxCommit, hf.reportStagedTaken, hf.report, hf.setContext, hf.context]

theorem Apart.recognise (v : State) (j : Nat) (call : Call) (b : FoundBurst) :
    f (v.recognise j call b) = (f v).recognise j call b := by
  unfold State.recognise
  simp only [hf.generationCheck, hf.context, hf.settings]
  cases (v.context j).sync with
  | hunt => simp only [hf.report, hf.setContext]
  | freewheel | keyWait => simp only [hf.setContext]
  | aligned => simp only [apply_ite f, hf.report, hf.setContext]

theorem Apart.countMiss (v : State) (j : Nat) (call : Call) : f (v.countMiss j call) = (f v).countMiss j call := by
  simp only [State.countMiss, hf.context, hf.settings, apply_ite f, hf.setContext, hf.report]

/-- The receive side reads and writes nothing of such a change. -/
theorem Apart.receive (v : State) (j : Nat) (call : Call) (code : Byte) :
    f (v.receive j call code) = (f v).receive j call code := by
  rw [State.receive_eq, State.receive_eq, hf.context, ← hf.setContext]
  generalize v.setContext j _ = w
  unfold State.decideArrival
  simp only [hf.context, hf.settings]
  cases findBurst w.settings.syncSpan (w.context j).window with
  | none => simp only [apply_ite f, hf.countMiss]
  | some b => simp only [hf.recognise]

end

/-! ### What the receive side leaves of the transmit side (R123, R150) -/

/-- Two contexts hold the same transmit side: frame number, generation and key. -/
structure Context.SameTx (c c' : Context) : Prop where
  frame : c'.txFrame = c.txFrame
  generation : c'.txGeneration = c.txGeneration
  key : c'.call.map Call.txKey = c.call.map Call.txKey

theorem Context.SameTx.transmitCode {c c' : Context} {call call' : Call} (h : c.SameTx c') (hcall : c.call = some call)
    (hcall' : c'.call = some call') (span : Nat) (clear : Byte) :
    transmitCode span c' call' clear = transmitCode span c call clear := by
  have hkey : call'.txKey = call.txKey := by simpa [hcall, hcall'] using h.key
  simp only [Sys2Proof.Machine.transmitCode, h.frame, h.generation, hkey]

/-- The decision of an arrival of a call leaves the transmit side as it is. -/
theorem State.WroteContext.decideArrival_sameTx {c : Context} {r : State} (h : v.WroteContext j c r x)
    (hcall : c.call = some call) : ∃ c' r', v.WroteContext j c' r' (x.decideArrival j call) ∧ c.SameTx c' := by
  unfold State.decideArrival
  dsimp only
  split
  · next b _ =>
    obtain ⟨y, hy, hcheck⟩ := h.recognise call b (confirmed :=
      decide (c.rxFrame.toNat % v.settings.syncSpan = 7 ∧ b.n0 = c.rxFrame - 7)) decide_eq_true_iff
    rw [hcheck]
    unfold State.generationCheck State.rxCommit
    dsimp only
    rw [hy.context]
    split
    · exact ⟨_, _, hy.setContext _, rfl, rfl, rfl⟩
    · split
      · split
        · exact ⟨_, _, ((hy.setContext _).report _).reportStagedTaken _ _ _, rfl, rfl, by rw [hcall]; rfl⟩
        · exact ⟨_, _, hy.enterKeyWait call _ _ _, rfl, rfl, rfl⟩
      · exact ⟨_, _, hy.enterKeyWait call _ _ _, rfl, rfl, rfl⟩
  · split
    · rcases Nat.lt_or_ge (c.misses + 1) v.settings.missLimit with hbelow | hlimit
      · exact ⟨_, _, h.countMiss_below call hbelow, rfl, rfl, rfl⟩
      · exact ⟨_, _, h.countMiss_atLimit call hlimit, rfl, rfl, rfl⟩
    · exact ⟨_, _, h, rfl, rfl, rfl⟩

theorem State.receive_sameTx (hcall : (v.context j).call = some call) (code : Byte) :
    ∃ c r, v.WroteContext j c r (v.receive j call code) ∧ (v.context j).SameTx c := by
  rw [State.receive_eq]
  obtain ⟨c, r, hwritten, hframe, hgeneration, hkey⟩ :=
    (v.wroteContext j ((v.context j).appended code)).decideArrival_sameTx (call := call) hcall
  exact ⟨c, r, hwritten, hframe, hgeneration, hkey⟩

/-! ### The two arrivals of a position (R34, R39 to R46) -/

section

variable {code looped : Byte}

theorem State.downstream_lineLoop (h : s.effective p = .lineLoop) : s.downstream p code looped = s := by
  simp only [State.downstream, h]

theorem State.downstream_switchLoop (h : s.effective p = .switchLoop) :
    s.downstream p code looped = s.setPosition p { s.position p with switchWaiting := code } := by
  simp only [State.downstream, h, State.toSwitch]

/-- The code for the line that a position hears outside a call without the switch's code (R41, R42, R44). -/
def State.heard (s : State) (p : Nat) : Effective → Byte
  | .pending => s.roleCode s.settings.challengeTone
  | .tone => s.channelCode (s.position p).toneChannel
  | _ => 255

theorem State.downstream_heard (h : s.effective p = .pending ∨ s.effective p = .mute ∨ s.effective p = .tone) :
    s.downstream p code looped = s.setPosition p { s.position p with lineWaiting := s.heard p (s.effective p) } := by
  rcases h with h | h | h <;> simp only [State.downstream, h, State.toLine, State.heard]

theorem State.downstream_clear (h : s.effective p = .clear) :
    s.downstream p code looped =
      s.setPosition p
        { s.position p with
          lineWaiting := gainCode (s.position p).downGain code
          downClamps := clampsAfter (s.position p).downClamps (gainClamps (s.position p).downGain code) } := by
  simp [State.downstream, h, State.toLine, State.countDownClamp]

end

/-- What the effective treatment is read off stays when only codes and counts of a position are written. -/
theorem State.effective_setPosition {pos : Position} (howner : pos.owner = (s.position p).owner := by rfl)
    (hpending : pos.pending = (s.position p).pending := by rfl) (hcontext : pos.context = (s.position p).context := by rfl)
    (hrequested : pos.requested = (s.position p).requested := by rfl) :
    (s.setPosition p pos).effective p = s.effective p := by
  refine State.effective_congr ?_ ?_ ?_ ?_ rfl
  all_goals rw [State.position_setPosition_self]
  · exact howner
  · exact hpending
  · exact hcontext
  · exact hrequested

theorem State.inCall_of_effective {shape : Shape} (h : s.effective p = .scrambled shape j call) : s.inCall p j call := by
  have hcontext := State.context_of_effective h
  have hcall := State.call_of_effective h
  refine ⟨fun howner => ?_, ?_, hcontext, hcall⟩
  · have hunowned := State.effective_of_unowned howner
    simp [h] at hunowned
  · cases hloop : (s.position p).requested.isLoop with
    | false => rfl
    | true =>
      rw [State.effective_loop hloop] at h
      cases hrequested : (s.position p).requested <;> rw [hrequested] at h <;> nomatch h

/-- The clear input of an upstream arrival in a call (R45). -/
def Position.clearInput (pos : Position) (code : Byte) : Byte :=
  if pos.requested = .mute then 255 else gainCode pos.upGain code

/-- The up clamp count after an upstream arrival in a call (R20, R45). -/
def Position.clampsInCall (pos : Position) (code : Byte) : Nat :=
  if pos.requested = .mute then pos.upClamps else clampsAfter pos.upClamps (gainClamps pos.upGain code)

theorem State.upstream_inCall (h : s.inCall p j call) (code : Byte) :
    s.upstream p code =
      s.setPosition p
        { s.position p with
          switchWaiting := transmitCode s.settings.syncSpan (s.context j) call ((s.position p).clearInput code)
          upClamps := (s.position p).clampsInCall code } := by
  have heffective := State.effective_ofInCall h
  unfold Position.clearInput Position.clampsInCall
  by_cases hmute : (s.position p).requested = .mute
  · rw [hmute] at heffective
    rw [if_pos hmute, if_pos hmute, State.upstream_scrambled_mute heffective]
  · rw [if_neg hmute, if_neg hmute, State.upstream_scrambled_gained (Treatment.shape_ne_mute hmute) heffective]

/-- The upstream and the downstream arrival of one position commute in a call: the one writes the code for the switch and
the up clamp count, the other the line side, the down clamp count and the receive side. -/
theorem State.upstream_downstream_inCall (h : s.inCall p j call) (code : Byte) :
    (s.upstream p code).downstream p 255 255 = (s.downstream p 255 255).upstream p code := by
  have hinput (v : State) : v.receiveInput j 255 255 = 255 := ite_self _
  obtain ⟨howner, hloop, hcontext, hcall⟩ := h
  have hup := State.upstream_inCall ⟨howner, hloop, hcontext, hcall⟩ code
  have hdown := State.downstream_scrambled ⟨howner, hloop, hcontext, hcall⟩ 255 255 rfl
  rw [hinput] at hdown
  generalize hr : s.releaseAt p (s.context j) call = r at hdown
  generalize hline : s.shaped p (s.position p).requested.shape r.code = line at hdown
  obtain ⟨c, reports, hwritten, hsame⟩ := State.receive_sameTx
    (v := s.setPosition p ((s.position p).released r line)) (call := call) (j := j) hcall 255
  rw [← hdown] at hwritten
  obtain ⟨call', hcall', -⟩ : ∃ call', c.call = some call' ∧ call'.txKey = call.txKey := by
    have hkey := hsame.key
    rw [State.context_setPosition, hcall] at hkey
    simpa only [Option.map_eq_some_iff, Option.map_some] using hkey
  have hposition : (s.downstream p 255 255).position p = (s.position p).released r line :=
    (hwritten.position_eq p).trans (State.position_setPosition_self _ _ _)
  have hcallAfter : (s.downstream p 255 255).inCall p j call' := by
    unfold State.inCall
    rw [hposition, hwritten.context]
    exact ⟨howner, hloop, hcontext, hcall'⟩
  have hcallBefore : (s.upstream p code).inCall p j call := by
    unfold State.inCall
    rw [hup, State.position_setPosition_self]
    exact ⟨howner, hloop, hcontext, hcall⟩
  have hreleased : (s.upstream p code).releaseAt p ((s.upstream p code).context j) call = r := by
    rw [hup, ← hr]
    unfold State.releaseAt State.releaseCode
    rw [State.position_setPosition_self]
    rfl
  have hshaped : (s.upstream p code).shaped p ((s.upstream p code).position p).requested.shape r.code = line := by
    rw [hup, ← hline]
    unfold State.shaped
    rw [State.position_setPosition_self]
    rfl
  rw [State.downstream_scrambled hcallBefore 255 255 hreleased, hinput, hshaped, State.upstream_inCall hcallAfter code, hposition,
    hwritten.context, hwritten.settings_eq, hsame.transmitCode hcall hcall', hdown,
    (Apart.setPosition p _).receive, State.setPosition_setPosition, hup, State.position_setPosition_self,
    State.setPosition_setPosition]
  rfl

theorem State.upstream_downstream (s : State) (p : Nat) (code : Byte) :
    (s.upstream p code).downstream p 255 255 = (s.downstream p 255 255).upstream p code := by
  cases h : s.effective p with
  | scrambled shape j call => exact State.upstream_downstream_inCall (State.inCall_of_effective h) code
  | lineLoop =>
    rw [State.downstream_lineLoop h, State.upstream_lineLoop h]
    exact State.downstream_lineLoop (Eq.trans State.effective_setPosition h)
  | switchLoop =>
    rw [State.downstream_switchLoop h, State.upstream_switchLoop h,
      State.downstream_switchLoop (Eq.trans State.effective_setPosition h),
      State.upstream_switchLoop (Eq.trans State.effective_setPosition h)]
    simp only [State.position_setPosition_self, State.setPosition_setPosition]
  | clear =>
    rw [State.downstream_clear h, State.upstream_gained (.inl h),
      State.downstream_clear (Eq.trans State.effective_setPosition h),
      State.upstream_gained (.inl (Eq.trans State.effective_setPosition h))]
    simp only [State.position_setPosition_self, State.setPosition_setPosition]
  | tone =>
    rw [State.downstream_heard (.inr (.inr h)), State.upstream_gained (.inr h),
      State.downstream_heard (.inr (.inr (Eq.trans State.effective_setPosition h))),
      State.upstream_gained (.inr (Eq.trans State.effective_setPosition h)), State.effective_setPosition, h]
    simp only [State.position_setPosition_self, State.setPosition_setPosition, State.heard]
    rfl
  | pending =>
    rw [State.downstream_heard (.inl h), State.upstream_silent (.inl h),
      State.downstream_heard (.inl (Eq.trans State.effective_setPosition h)),
      State.upstream_silent (.inl (Eq.trans State.effective_setPosition h)), State.effective_setPosition, h]
    simp only [State.position_setPosition_self, State.setPosition_setPosition, State.heard]
    rfl
  | mute =>
    rw [State.downstream_heard (.inr (.inl h)), State.upstream_silent (.inr h),
      State.downstream_heard (.inr (.inl (Eq.trans State.effective_setPosition h))),
      State.upstream_silent (.inr (Eq.trans State.effective_setPosition h)), State.effective_setPosition, h]
    simp only [State.position_setPosition_self, State.setPosition_setPosition, State.heard]

/-! ### The arrivals that a cut-short frame owes (R2) -/

theorem State.downstream_withBoundary (s : State) (b : Boundary) (p : Nat) (code looped : Byte) :
    (s.withBoundary b).downstream p code looped = (s.downstream p code looped).withBoundary b := by
  have heffective : (s.withBoundary b).effective p = s.effective p := rfl
  cases h : s.effective p with
  | scrambled shape j call =>
    have hcall := State.inCall_of_effective h
    have hcall' : (s.withBoundary b).inCall p j call := hcall
    rw [State.downstream_scrambled hcall code looped rfl, State.downstream_scrambled hcall' code looped rfl,
      (Apart.withBoundary b).receive]
    rfl
  | lineLoop | switchLoop | pending | mute | clear | tone => simp only [State.downstream, heffective, h] <;> rfl

theorem State.supplyDown_owed (hdue : p ∈ s.boundary.suppliedDown) :
    s.supplyDown p =
      (s.downstream p 255 255).withBoundary { s.boundary with suppliedDown := s.boundary.suppliedDown.erase p } := by
  rw [State.supplyDown, if_pos hdue]
  exact s.downstream_withBoundary _ p 255 255

theorem State.boundary_supplyDown (hdue : p ∈ s.boundary.suppliedDown) :
    (s.supplyDown p).boundary = { s.boundary with suppliedDown := s.boundary.suppliedDown.erase p } := by
  rw [State.supplyDown_owed hdue]
  rfl

theorem State.suppliedDown_supplyUp (s : State) (p : Nat) :
    (s.supplyUp p).boundary.suppliedDown = s.boundary.suppliedDown := by
  by_cases hdue : p ∈ s.boundary.suppliedUp
  · rw [State.boundary_supplyUp hdue]
  · rw [State.supplyUp_idle hdue]

theorem State.suppliedUp_supplyDown (s : State) (p : Nat) :
    (s.supplyDown p).boundary.suppliedUp = s.boundary.suppliedUp := by
  by_cases hdue : p ∈ s.boundary.suppliedDown
  · rw [State.boundary_supplyDown hdue]
  · rw [State.supplyDown_idle hdue]

/-- The two arrivals that a position is owed commute. -/
theorem State.supplyUp_supplyDown (s : State) (p : Nat) :
    (s.supplyUp p).supplyDown p = (s.supplyDown p).supplyUp p := by
  by_cases hup : p ∈ s.boundary.suppliedUp
  · by_cases hdown : p ∈ s.boundary.suppliedDown
    · rw [State.supplyDown_owed (s := s.supplyUp p) (by rw [State.suppliedDown_supplyUp]; exact hdown),
        State.supplyUp_owed (s := s.supplyDown p) (by rw [State.suppliedUp_supplyDown]; exact hup),
        State.supplyUp_owed hup, State.supplyDown_owed hdown, State.downstream_withBoundary,
        State.upstream_withBoundary, State.upstream_downstream]
      rfl
    · rw [State.supplyDown_idle hdown, State.supplyDown_idle (by rw [State.suppliedDown_supplyUp]; exact hdown)]
  · rw [State.supplyUp_idle hup, State.supplyUp_idle (by rw [State.suppliedUp_supplyDown]; exact hup)]

/-- An owed upstream arrival is taken once. -/
theorem State.supplyUp_supplyUp (hnodup : s.boundary.suppliedUp.Nodup) (p : Nat) :
    (s.supplyUp p).supplyUp p = s.supplyUp p := by
  by_cases hdue : p ∈ s.boundary.suppliedUp
  · refine State.supplyUp_idle ?_
    rw [State.boundary_supplyUp hdue]
    exact hnodup.not_mem_erase
  · rw [State.supplyUp_idle hdue, State.supplyUp_idle hdue]

theorem State.supplyDown_supplyDown (hnodup : s.boundary.suppliedDown.Nodup) (p : Nat) :
    (s.supplyDown p).supplyDown p = s.supplyDown p := by
  by_cases hdue : p ∈ s.boundary.suppliedDown
  · refine State.supplyDown_idle ?_
    rw [State.boundary_supplyDown hdue]
    exact hnodup.not_mem_erase
  · rw [State.supplyDown_idle hdue, State.supplyDown_idle hdue]

/-- Whatever comes after both owed arrivals of a position finds them taken, by their commands or then. -/
theorem State.supplyBoth_supplyUp (hnodup : s.boundary.suppliedUp.Nodup) (p : Nat) :
    (s.supplyUp p).supplyBoth p = s.supplyBoth p := by
  rw [State.supplyBoth, State.supplyBoth, State.supplyUp_supplyUp hnodup]

theorem State.supplyBoth_supplyDown (hnodup : s.boundary.suppliedDown.Nodup) (p : Nat) :
    (s.supplyDown p).supplyBoth p = s.supplyBoth p := by
  rw [State.supplyBoth, State.supplyBoth, ← State.supplyUp_supplyDown,
    State.supplyDown_supplyDown (by rw [State.suppliedDown_supplyUp]; exact hnodup)]

theorem exec_suppliedDown (h : s.pulsed) (p : Fin 480) :
    exec (.downstreamArrival p .supplied) s = .next (s.supplyDown p.val) :=
  State.whilePulsed_of_pulsed h fun v => v.supplyDown p.val

theorem exec_downstreamCarried (h : s.pulsed) (p : Fin 480) (code : Byte) :
    exec (.downstreamArrival p (.carried code)) s = .next (s.downstreamCarried p.val code) :=
  State.whilePulsed_of_pulsed h fun v => v.downstreamCarried p.val code

theorem exec_waitingCodeSent (h : s.pulsed) (p : Fin 480) (side : Side) :
    exec (.waitingCodeSent p side) s = .next (s.driveSlot p.val side) :=
  State.whilePulsed_of_pulsed h fun v => v.driveSlot p.val side

/-- The events of a position in a frame come after its owed arrivals: they are the same from two states that agree once
those have been taken. -/
theorem exec_of_supplyBoth_eq {p : Fin 480} (hs : s.pulsed) (ht : t.pulsed) (h : t.supplyBoth p.val = s.supplyBoth p.val) :
    (∀ code, exec (.upstreamArrival p (.carried code)) s = exec (.upstreamArrival p (.carried code)) t) ∧
      (∀ code, exec (.downstreamArrival p (.carried code)) s = exec (.downstreamArrival p (.carried code)) t) ∧
      ∀ side, exec (.waitingCodeSent p side) s = exec (.waitingCodeSent p side) t := by
  refine ⟨fun code => ?_, fun code => ?_, fun side => ?_⟩
  · rw [exec_upstreamCarried hs, exec_upstreamCarried ht, State.upstreamCarried, State.upstreamCarried, h]
  · rw [exec_downstreamCarried hs, exec_downstreamCarried ht, State.downstreamCarried, State.downstreamCarried, h]
  · rw [exec_waitingCodeSent hs, exec_waitingCodeSent ht]
    unfold State.driveSlot
    rw [h]

end Sys2Proof.Machine
end

section
/-! What the events of a boundary leave owed (assumption 2): no event from the deadlines on lets anything become due that was
not due before it. -/

namespace Sys2Proof.Machine

variable {s t u : State}

/-! ### A state that owes no more than another -/

/-- The boundary `b` owes no event that `a` does not owe. -/
structure Boundary.Below (b a : Boundary) : Prop where
  secondDue : b.secondDue = true → a.secondDue = true
  takeDue : b.takeDue = true → a.takeDue = true
  reportDue : b.reportDue = true → a.reportDue = true
  lineDue : b.lineDue ⊆ a.lineDue
  playoutDue : b.playoutDue ⊆ a.playoutDue
  txDue : b.txDue ⊆ a.txDue
  suppliedUp : b.suppliedUp ⊆ a.suppliedUp
  suppliedDown : b.suppliedDown ⊆ a.suppliedDown

theorem Boundary.Below.refl (b : Boundary) : b.Below b :=
  ⟨id, id, id, List.Subset.refl _, List.Subset.refl _, List.Subset.refl _, List.Subset.refl _, List.Subset.refl _⟩

theorem Boundary.Below.trans {c b a : Boundary} (h : b.Below a) (h' : c.Below b) : c.Below a where
  secondDue := h.secondDue ∘ h'.secondDue
  takeDue := h.takeDue ∘ h'.takeDue
  reportDue := h.reportDue ∘ h'.reportDue
  lineDue := List.Subset.trans h'.lineDue h.lineDue
  playoutDue := List.Subset.trans h'.playoutDue h.playoutDue
  txDue := List.Subset.trans h'.txDue h.txDue
  suppliedUp := List.Subset.trans h'.suppliedUp h.suppliedUp
  suppliedDown := List.Subset.trans h'.suppliedDown h.suppliedDown

/-- The state `t` stands at the counts of `s`, and owes nothing that `s` does not owe: no event of the last boundary, no
completion and no deadline. -/
structure OwesNoMore (s t : State) : Prop where
  frameCount : t.frameCount = s.frameCount
  secondCount : t.secondCount = s.secondCount
  boundary : t.boundary.Below s.boundary
  completing : s.completing = [] → t.completing = []
  holdOff : ∀ p, t.holdOffDue p → s.holdOffDue p
  answer : ∀ e, t.answerDue e → s.answerDue e
  refresh : ∀ e, t.refreshDue e → s.refreshDue e
  rechallenge : ∀ e, t.rechallengeDue e → s.rechallengeDue e

theorem OwesNoMore.refl (s : State) : OwesNoMore s s :=
  ⟨rfl, rfl, .refl _, id, fun _ => id, fun _ => id, fun _ => id, fun _ => id⟩

theorem OwesNoMore.trans (h : OwesNoMore s t) (h' : OwesNoMore t u) : OwesNoMore s u where
  frameCount := h'.frameCount.trans h.frameCount
  secondCount := h'.secondCount.trans h.secondCount
  boundary := h.boundary.trans h'.boundary
  completing := h'.completing ∘ h.completing
  holdOff p := h.holdOff p ∘ h'.holdOff p
  answer e := h.answer e ∘ h'.answer e
  refresh e := h.refresh e ∘ h'.refresh e
  rechallenge e := h.rechallenge e ∘ h'.rechallenge e

/-! ### What an operation on the records leaves owed -/

/-- What writes no position and no entry, and moves no count, changes no deadline. -/
theorem OwesNoMore.elsewhere (h : OwesNoMore s t) (hframeCount : u.frameCount = t.frameCount := by rfl)
    (hsecondCount : u.secondCount = t.secondCount := by rfl) (hpositions : u.positions = t.positions := by rfl)
    (hentries : u.entries = t.entries := by rfl) (hboundary : u.boundary.Below t.boundary := by exact .refl _)
    (hcompleting : t.completing = [] → u.completing = [] := by exact id) : OwesNoMore s u := by
  refine h.trans ⟨hframeCount, hsecondCount, hboundary, hcompleting, fun p => ?_, fun e => ?_, fun e => ?_, fun e => ?_⟩
  · simp only [State.holdOffDue, State.position, hpositions, hframeCount, imp_self]
  · simp only [State.answerDue, State.entry, hentries, hframeCount, imp_self]
  · simp only [State.refreshDue, State.entry, hentries, hsecondCount, imp_self]
  · simp only [State.rechallengeDue, State.entry, hentries, hsecondCount, imp_self]

/-- A write of a position; that its hold-off is not newly due is checked by evaluation. -/
theorem OwesNoMore.setPosition (h : OwesNoMore s t) (p : Nat) {v : Position}
    (hv : v.holdOff = some t.frameCount → t.holdOffDue p := by exact id) : OwesNoMore s (t.setPosition p v) := by
  refine h.trans ⟨rfl, rfl, .refl _, id, fun q hq => ?_, fun _ => id, fun _ => id, fun _ => id⟩
  rw [State.holdOffDue, State.position_setPosition] at hq
  split at hq
  · next heq => exact heq ▸ hv hq
  · exact hq

/-- A write of an entry, checked in the same way. -/
theorem OwesNoMore.setEntry (h : OwesNoMore s t) (e : Nat) {v : Entry}
    (hanswer : (∃ c, v.candidate = some c ∧ c.stage = .awaiting t.frameCount) → t.answerDue e := by exact id)
    (hrefresh : v.refresh = some t.secondCount → t.refreshDue e := by exact id)
    (hrechallenge : v.rechallenge = some t.secondCount → t.rechallengeDue e := by exact id) :
    OwesNoMore s (t.setEntry e v) := by
  refine h.trans ⟨rfl, rfl, .refl _, id, fun _ => id, fun f hf => ?_, fun f hf => ?_, fun f hf => ?_⟩
  · rw [State.answerDue, State.entry_setEntry] at hf
    split at hf
    · next heq => exact heq ▸ hanswer hf
    · exact hf
  · rw [State.refreshDue, State.entry_setEntry] at hf
    split at hf
    · next heq => exact heq ▸ hrefresh hf
    · exact hf
  · rw [State.rechallengeDue, State.entry_setEntry] at hf
    split at hf
    · next heq => exact heq ▸ hrechallenge hf
    · exact hf

theorem OwesNoMore.report (h : OwesNoMore s t) (r : Report) : OwesNoMore s (t.report r) := by
  rw [State.report_frame]
  exact h.elsewhere

theorem OwesNoMore.replyTo (h : OwesNoMore s t) (p : Nat) (r : LineReply) : OwesNoMore s (t.replyTo p r) := h.elsewhere

theorem OwesNoMore.setContext (h : OwesNoMore s t) (j : Nat) (c : Context) : OwesNoMore s (t.setContext j c) := h.elsewhere

theorem OwesNoMore.removeCandidate (h : OwesNoMore s t) (e p : Nat) : OwesNoMore s (t.removeCandidate e p) :=
  (h.setEntry e (fun ⟨_, hnone, _⟩ => nomatch hnone)).setPosition p

theorem OwesNoMore.dropCandidate (h : OwesNoMore s t) (e : Nat) : OwesNoMore s (t.dropCandidate e) := by
  unfold State.dropCandidate
  cases (t.entry e).candidate with
  | none => exact h
  | some c =>
    have hremoved := h.removeCandidate e c.position
    dsimp only
    cases c.stage with
    | awaiting _ => exact hremoved
    | queued => exact hremoved.elsewhere (hcompleting := fun hnil => by rw [State.voidItems, hnil]; rfl)

theorem OwesNoMore.setGroup (h : OwesNoMore s t) (g : Nat) (v : Group) : OwesNoMore s (t.setGroup g v) := h.elsewhere

theorem OwesNoMore.unreserve (h : OwesNoMore s t) (j : Nat) : OwesNoMore s { t with reserved := t.reserved.erase j } :=
  h.elsewhere

theorem OwesNoMore.releaseContext (h : OwesNoMore s t) (j : Nat) (call : Call) : OwesNoMore s (t.releaseContext j call) :=
  ((((h.setContext j _).setGroup _ _).setPosition _).setEntry _).unreserve j

theorem OwesNoMore.closeContextOf (h : OwesNoMore s t) (e : Nat) (cause : CloseCause) :
    OwesNoMore s (t.closeContextOf e cause) := by
  unfold State.closeContextOf State.closeContext
  split
  · exact h
  · split
    · exact h
    · exact (h.releaseContext _ _).report _

/-- An entry that loses its home loses its deadlines. -/
theorem OwesNoMore.unbind (h : OwesNoMore s t) (e : Nat) : OwesNoMore s (t.unbind e) := by
  have hleft : OwesNoMore s (t.setEntry e { t.entry e with home := none, refresh := none, rechallenge := none }) :=
    h.setEntry e (hrefresh := nofun) (hrechallenge := nofun)
  unfold State.unbind
  dsimp only
  split
  · exact hleft
  · exact hleft.setPosition _

theorem OwesNoMore.endAdmission (h : OwesNoMore s t) (e : Nat) (cause : CloseCause) (state : EntryState) :
    OwesNoMore s (t.endAdmission e cause state) :=
  ((h.closeContextOf e cause).unbind e).setEntry e

/-! ### The deadlines (R77, R86, R87, R108, R110, R111) -/

theorem OwesNoMore.takeHoldOff (h : OwesNoMore s t) (p : Nat) : OwesNoMore s (t.takeHoldOff p) := by
  unfold State.takeHoldOff
  split
  · exact h.setPosition p nofun
  · exact h

theorem OwesNoMore.takeAnswerDeadline (h : OwesNoMore s t) (e : Nat) : OwesNoMore s (t.takeAnswerDeadline e) := by
  unfold State.takeAnswerDeadline
  split
  · exact h
  · next c _ =>
    split
    · have hremoved := h.removeCandidate e c.position
      unfold State.answerTimeout
      dsimp only
      split
      · exact hremoved.replyTo _ _
      · exact hremoved.replyTo _ _
      · exact ((hremoved.endAdmission e _ _).replyTo _ _).report _
    · exact h

theorem OwesNoMore.takeRefresh (h : OwesNoMore s t) (e : Nat) : OwesNoMore s (t.takeRefresh e) := by
  unfold State.takeRefresh
  split
  · have hended := (h.dropCandidate e).endAdmission e .lapsed .absent
    unfold State.lapse
    dsimp only
    split
    · exact hended
    · exact (hended.replyTo _ _).report _
  · exact h

/-- A second ahead is not now. -/
theorem State.secondsDeadline_one_ne (s : State) : s.secondsDeadline 1 ≠ s.secondCount := by
  unfold State.secondsDeadline SecondNumber at *
  bv_omega

/-- An Answer Window ahead is not now (R168). -/
theorem State.Ranged.answerWindow_ne (h : s.Ranged) : s.frameDeadline s.settings.answerWindow ≠ s.frameCount := by
  have hwindow := (Settings.inRange_iff_ranged.1 h.settings).answerWindow
  unfold State.frameDeadline
  intro heq
  have htoNat := congrArg BitVec.toNat heq
  rw [BitVec.toNat_add, BitVec.toNat_ofNat] at htoNat
  have hlt := s.frameCount.isLt
  omega

theorem OwesNoMore.takeRechallenge (ht : t.Ranged) (h : OwesNoMore s t) (e : Nat) : OwesNoMore s (t.takeRechallenge e) := by
  unfold State.takeRechallenge State.rechallengeAt
  split
  · split
    · exact h
    · next p _ =>
      split
      · exact h.setEntry e (hrechallenge := fun heq => absurd (Option.some.inj heq) t.secondsDeadline_one_ne)
      · have hcleared : OwesNoMore s (t.setEntry e { t.entry e with rechallenge := none }) :=
          h.setEntry e (hrechallenge := nofun)
        refine ((hcleared.setEntry e ?_ ?_ ?_).setPosition p).replyTo p _
        · rintro ⟨c, hc, hstage⟩
          obtain rfl := Option.some.inj hc
          exact absurd (Stage.awaiting.inj hstage) ht.answerWindow_ne
        · exact (show none = some _ → _ from nofun)
        · exact id
  · exact h

/-! ### The transmit sides, the playout channels and the outbound cells (R7, R130, R160, R172) -/

/-- Events struck from the record of the boundary are owed no more. -/
theorem OwesNoMore.strike (h : OwesNoMore s t) {b : Boundary} (hb : b.Below t.boundary) :
    OwesNoMore s { t with boundary := b } :=
  h.elsewhere (hboundary := hb)

/-- An upstream arrival writes codes and a count of clamps. -/
theorem OwesNoMore.supplyUp (h : OwesNoMore s t) (p : Nat) : OwesNoMore s (t.supplyUp p) := by
  by_cases hdue : p ∈ t.boundary.suppliedUp
  · obtain ⟨_, _, _, hupstream⟩ := t.upstream_writes p 255
    rw [State.supplyUp_owed hdue, hupstream]
    exact (h.setPosition p).strike { Boundary.Below.refl _ with suppliedUp := List.erase_subset }
  · rwa [State.supplyUp_idle hdue]

theorem OwesNoMore.takeTx (h : OwesNoMore s t) (j : Nat) : OwesNoMore s (t.takeTx j) := by
  by_cases hdue : j ∈ t.boundary.txDue
  · have hstruck : OwesNoMore s (t.withTxDue (t.boundary.txDue.erase j)) :=
      h.strike { Boundary.Below.refl _ with txDue := List.erase_subset }
    cases hcall : (t.context j).call with
    | none => rwa [State.takeTx_free hdue hcall]
    | some call =>
      rw [State.takeTx_open hdue hcall]
      exact State.txAdvance_keeps (P := OwesNoMore s) (fun _ k c hv => hv.setContext k c) (fun _ r hv => hv.report r)
        (hstruck.supplyUp call.position) j
  · rwa [State.takeTx_idle hdue]

theorem OwesNoMore.playoutStep (h : OwesNoMore s t) (c : Nat) : OwesNoMore s (t.playoutStep c) := by
  have hadvanced : OwesNoMore s (t.setChannel c (t.channel c).advanced) := h.elsewhere
  unfold State.playoutStep
  dsimp only
  split
  · exact h
  · exact h
  · split
    · exact hadvanced.report _
    · exact hadvanced

theorem OwesNoMore.takePlayout (h : OwesNoMore s t) (c : Nat) : OwesNoMore s (t.takePlayout c) := by
  by_cases hdue : c ∈ t.boundary.playoutDue
  · have hstruck : OwesNoMore s { t with boundary := { t.boundary with playoutDue := t.boundary.playoutDue.erase c } } :=
      h.strike { Boundary.Below.refl _ with playoutDue := List.erase_subset }
    rw [State.takePlayout_owed hdue]
    exact hstruck.playoutStep c
  · rwa [State.takePlayout_idle hdue]

theorem OwesNoMore.takeLineCell (h : OwesNoMore s t) (i : Nat) : OwesNoMore s (t.takeLineCell i) := by
  by_cases hdue : i ∈ t.boundary.lineDue
  · rw [State.takeLineCell_due hdue]
    exact h.elsewhere (hboundary := { Boundary.Below.refl _ with lineDue := List.erase_subset })
  · rwa [State.takeLineCell_idle hdue]

theorem OwesNoMore.takeReport (h : OwesNoMore s t) : OwesNoMore s t.takeReport := by
  cases hdue : t.boundary.reportDue with
  | false => rwa [State.takeReport_idle hdue]
  | true =>
    rw [State.takeReport_due hdue, State.sendReport_frame]
    exact h.elsewhere (hboundary := { Boundary.Below.refl _ with reportDue := nofun })

end Sys2Proof.Machine
end

section
/-! The events of a boundary in sequence (assumption 2): a deadline that is met is met for good, and the order of a table
decides which comes first; an event of a list is struck from it. -/

namespace Sys2Proof.Machine

variable {s t : State} {event : State → Nat → State} {due : State → Nat → Prop} {owed : State → List Nat}
  {i : Nat} {is ks : List Nat}

/-! ### Events that let nothing become due -/

/-- The laws that the events of a boundary stand on: every field in its range, the admissions and candidates in order. -/
structure State.Lawful (s : State) : Prop where
  ranged : s.Ranged
  roster : s.Roster ∅

theorem State.Lawful.of_agrees (hwf : s.wf = true) (hagrees : s.agrees) : s.Lawful :=
  ⟨.of_wf hwf, .of_agrees hwf hagrees⟩

/-- An event that keeps the laws and lets nothing become due: the deadlines and what comes after them. -/
structure LateEvent (event : State → Nat → State) : Prop where
  lawful : ∀ s i, s.Lawful → (event s i).Lawful
  owes : ∀ s i, s.Lawful → OwesNoMore s (event s i)

theorem LateEvent.forEach (h : LateEvent event) (hs : s.Lawful) (is : List Nat) :
    (s.forEach is event).Lawful ∧ OwesNoMore s (s.forEach is event) :=
  State.forEach_keeps (P := fun v => v.Lawful ∧ OwesNoMore s v)
    (fun v i hv => ⟨h.lawful v i hv.1, hv.2.trans (h.owes v i hv.1)⟩) is ⟨hs, .refl s⟩

theorem LateEvent.takeHoldOff : LateEvent State.takeHoldOff :=
  ⟨fun s p h => ⟨((EventKeeps.refl s).takeHoldOff p).ranged h.ranged, h.roster.takeHoldOff p⟩,
    fun s p _ => (OwesNoMore.refl s).takeHoldOff p⟩

theorem LateEvent.takeAnswerDeadline : LateEvent State.takeAnswerDeadline :=
  ⟨fun s e h => ⟨((EventKeeps.refl s).takeAnswerDeadline e).ranged h.ranged, h.roster.takeAnswerDeadline e⟩,
    fun s e _ => (OwesNoMore.refl s).takeAnswerDeadline e⟩

theorem LateEvent.takeRefresh : LateEvent State.takeRefresh :=
  ⟨fun s e h => ⟨((EventKeeps.refl s).takeRefresh e).ranged h.ranged, h.roster.takeRefresh e⟩,
    fun s e _ => (OwesNoMore.refl s).takeRefresh e⟩

theorem LateEvent.takeRechallenge : LateEvent State.takeRechallenge :=
  ⟨fun s e h => ⟨((EventKeeps.refl s).takeRechallenge e).ranged h.ranged, h.roster.takeRechallenge e⟩,
    fun s e h => (OwesNoMore.refl s).takeRechallenge h.ranged e⟩

theorem LateEvent.takeTx : LateEvent State.takeTx :=
  ⟨fun s j h => ⟨((EventKeeps.refl s).takeTx j).ranged h.ranged, h.roster.takeTx j⟩,
    fun s j _ => (OwesNoMore.refl s).takeTx j⟩

theorem LateEvent.takePlayout : LateEvent State.takePlayout :=
  ⟨fun s c h => ⟨((EventKeeps.refl s).takePlayout c).ranged h.ranged, h.roster.takePlayout c⟩,
    fun s c _ => (OwesNoMore.refl s).takePlayout c⟩

theorem LateEvent.takeLineCell : LateEvent State.takeLineCell :=
  ⟨fun s i h => ⟨((EventKeeps.refl s).takeLineCell i).ranged h.ranged, h.roster.takeLineCell i⟩,
    fun s i _ => (OwesNoMore.refl s).takeLineCell i⟩

/-! ### Deadlines -/

/-- The event of a deadline: nothing while its index is not due, and after it its index is due no more. -/
structure DeadlineEvent (due : State → Nat → Prop) (event : State → Nat → State) : Prop extends LateEvent event where
  idle : ∀ s i, ¬ due s i → event s i = s
  met : ∀ s i, s.Lawful → ¬ due (event s i) i
  fewer : ∀ s t i, OwesNoMore s t → due t i → due s i

theorem DeadlineEvent.takeHoldOff : DeadlineEvent State.holdOffDue State.takeHoldOff where
  toLateEvent := .takeHoldOff
  idle _ _ := State.takeHoldOff_idle
  met s p _ hdue := by
    by_cases hbefore : (s.position p).holdOff = some s.frameCount
    · rw [State.takeHoldOff_due hbefore, State.holdOffDue, State.position_setPosition_self] at hdue
      exact nomatch hdue
    · exact hbefore (((OwesNoMore.refl s).takeHoldOff p).holdOff p hdue)
  fewer _ _ p h := h.holdOff p

/-- A candidate that answers late is gone (R86, R87). -/
theorem State.not_answerDue_answerTimeout (s : State) (e : Nat) (c : Candidate) : ¬ (s.answerTimeout e c).answerDue e := by
  have hremoved : ¬ (s.removeCandidate e c.position).answerDue e := by
    rintro ⟨d, hd, -⟩
    rw [State.removeCandidate_eq, State.entry_candidateLeft, if_pos rfl] at hd
    exact nomatch hd
  have howes : OwesNoMore (s.removeCandidate e c.position) (s.answerTimeout e c) := by
    unfold State.answerTimeout
    cases c.kind with
    | first | move => exact (OwesNoMore.refl _).replyTo _ _
    | renew => exact (((OwesNoMore.refl _).endAdmission e _ _).replyTo _ _).report _
  exact fun hdue => hremoved (howes.answer e hdue)

theorem DeadlineEvent.takeAnswerDeadline : DeadlineEvent State.answerDue State.takeAnswerDeadline where
  toLateEvent := .takeAnswerDeadline
  idle _ _ h := State.takeAnswerDeadline_idle fun c hc hstage => h ⟨c, hc, hstage⟩
  met s e _ hdue := by
    obtain ⟨c, hc, hstage⟩ := ((OwesNoMore.refl s).takeAnswerDeadline e).answer e hdue
    rw [State.takeAnswerDeadline_due hc hstage] at hdue
    exact s.not_answerDue_answerTimeout e c hdue
  fewer _ _ e h := h.answer e

/-- An entry whose admission has ended has no refresh deadline (R54). -/
theorem State.not_refreshDue_endAdmission (s : State) (e : Nat) (cause : CloseCause) (state : EntryState) :
    ¬ (s.endAdmission e cause state).refreshDue e := by
  simp [State.refreshDue, State.endAdmission, State.setEntryState, State.entry_unbind]

theorem DeadlineEvent.takeRefresh : DeadlineEvent State.refreshDue State.takeRefresh where
  toLateEvent := .takeRefresh
  idle _ _ := State.takeRefresh_idle
  met s e _ hdue := by
    have hbefore := ((OwesNoMore.refl s).takeRefresh e).refresh e hdue
    have hended := (s.dropCandidate e).not_refreshDue_endAdmission e .lapsed .absent
    rw [State.takeRefresh_due hbefore] at hdue
    dsimp only [State.lapse] at hdue
    split at hdue
    · exact hended hdue
    · exact hended ((((OwesNoMore.refl _).replyTo _ _).report _).refresh e hdue)
  fewer _ _ e h := h.refresh e

/-- A re-challenge leaves its deadline a second ahead or absent (R110, R111). -/
theorem State.not_rechallengeDue_rechallengeAt (s : State) (e p : Nat) : ¬ (s.rechallengeAt e p).rechallengeDue e := by
  unfold State.rechallengeAt
  split
  · rw [State.rechallengeDue, State.entry_setEntry_self]
    exact fun heq => s.secondsDeadline_one_ne (Option.some.inj heq)
  · have hcleared : (((s.setEntry e { s.entry e with rechallenge := none }).createCandidate e p .renew).entry e).rechallenge =
        none := by
      simp [State.createCandidate, State.replyTo]
    exact fun hdue => nomatch hdue.symm.trans hcleared

theorem DeadlineEvent.takeRechallenge : DeadlineEvent State.rechallengeDue State.takeRechallenge where
  toLateEvent := .takeRechallenge
  idle _ _ := State.takeRechallenge_idle
  met s e hs hdue := by
    have hbefore := ((OwesNoMore.refl s).takeRechallenge hs.ranged e).rechallenge e hdue
    have hadmitted : (s.entry e).state = .admitted := by
      by_contra hstate
      exact nomatch hbefore.symm.trans ((hs.roster.deadlinesAgree e).1 hstate).2
    obtain ⟨p, hhome⟩ := Option.ne_none_iff_exists'.1 ((hs.roster.homesAgree.2 e).2 hadmitted)
    rw [State.takeRechallenge_due hbefore hhome] at hdue
    exact s.not_rechallengeDue_rechallengeAt e p hdue
  fewer _ _ e h := h.rechallenge e

section Deadlines

variable (h : DeadlineEvent due event)

include h

theorem DeadlineEvent.forEach_idle (hnone : ∀ i, ¬ due s i) (is : List Nat) : s.forEach is event = s :=
  State.forEach_idle (fun i => h.idle s i (hnone i)) is

/-- After a sequence of deadlines no index of the sequence is due. -/
theorem DeadlineEvent.not_due_forEach (hs : s.Lawful) (hi : i ∈ is ∨ ¬ due s i) : ¬ due (s.forEach is event) i := by
  induction is generalizing s with
  | nil => exact hi.resolve_left List.not_mem_nil
  | cons k is ih =>
    refine ih (h.lawful s k hs) ?_
    rcases hi with hi | hi
    · rcases List.mem_cons.1 hi with rfl | hi
      · exact .inr (h.met s i hs)
      · exact .inl hi
    · exact .inr fun hdue => hi (h.fewer _ _ i (h.owes s k hs) hdue)

/-- A sequence may leave out what is not due. -/
theorem DeadlineEvent.forEach_filter (hs : s.Lawful) {q : Nat → Bool} (hq : ∀ i, due s i → q i = true) (is : List Nat) :
    s.forEach (is.filter q) event = s.forEach is event := by
  induction is generalizing s with
  | nil => rfl
  | cons k is ih =>
    have hrest := ih (h.lawful s k hs) fun i hi => hq i (h.fewer _ _ i (h.owes s k hs) hi)
    cases hk : q k with
    | true => rw [List.filter_cons_of_pos hk, State.forEach_cons, State.forEach_cons, hrest]
    | false =>
      have hidle : event s k = s := h.idle s k fun hdue => Bool.false_ne_true (hk.symm.trans (hq k hdue))
      rw [hidle] at hrest
      rw [List.filter_cons_of_neg (by rw [hk]; exact Bool.false_ne_true), State.forEach_cons, hidle, hrest]

/-- Two rising sequences that each hold all that is due come to the same. -/
theorem DeadlineEvent.forEach_eq (hs : s.Lawful) (his : is.Pairwise (· < ·)) (hks : ks.Pairwise (· < ·))
    (hin : ∀ i, due s i → i ∈ is) (hin' : ∀ i, due s i → i ∈ ks) : s.forEach is event = s.forEach ks event := by
  classical
  have hq : ∀ i, due s i → decide (due s i) = true := fun _ => decide_eq_true
  have hsame : is.filter (fun i => decide (due s i)) = ks.filter (fun i => decide (due s i)) := by
    refine List.Perm.eq_of_pairwise (le := (· < ·)) (fun a b _ _ hab hba => absurd hab (Nat.lt_asymm hba)) (his.filter _)
      (hks.filter _) ((List.perm_ext_iff_of_nodup (his.filter _).nodup (hks.filter _).nodup).2 fun i => ?_)
    simp only [List.mem_filter, decide_eq_true_eq]
    exact ⟨fun hi => ⟨hin' i hi.2, hi.2⟩, fun hi => ⟨hin i hi.2, hi.2⟩⟩
  rw [← h.forEach_filter hs hq is, hsame, h.forEach_filter hs hq ks]

/-- The lowest of what is due may come first, and the sequence start anew (assumption 2). -/
theorem DeadlineEvent.forEach_lowest (hs : s.Lawful) (hi : Lowest (due s) i) (his : is.Pairwise (· < ·))
    (hks : ks.Pairwise (· < ·)) (hin : ∀ k, due s k → k ∈ is) (hin' : ∀ k, due (event s i) k → k ∈ ks) :
    (event s i).forEach ks event = s.forEach is event := by
  have hsorted : (i :: is.filter (i < ·)).Pairwise (· < ·) :=
    List.pairwise_cons.2 ⟨fun k hk => of_decide_eq_true (List.mem_filter.1 hk).2, his.filter _⟩
  have hrest : ∀ k, due s k → k ≠ i → k ∈ is.filter (i < ·) := fun k hk hne =>
    List.mem_filter.2 ⟨hin k hk, decide_eq_true (Nat.lt_of_le_of_ne (Nat.le_of_not_lt fun hlt => hi.2 k hlt hk) hne.symm)⟩
  have hafter : ∀ k, due (event s i) k → k ∈ is.filter (i < ·) := fun k hk =>
    hrest k (h.fewer _ _ k (h.owes s i hs) hk) fun heq => h.met s i hs (heq ▸ hk)
  calc (event s i).forEach ks event = (event s i).forEach (is.filter (i < ·)) event :=
        h.forEach_eq (h.lawful s i hs) hks (his.filter _) hin' hafter
    _ = s.forEach (i :: is.filter (i < ·)) event := rfl
    _ = s.forEach is event := h.forEach_eq hs hsorted his
        (fun k hk => (Classical.em (k = i)).elim (fun heq => heq ▸ List.mem_cons_self ..)
          fun hne => List.mem_cons_of_mem _ (hrest k hk hne)) hin

end Deadlines

/-! ### Events of a list -/

/-- An event is struck from the list of those owed. -/
def Strikes (owed : State → List Nat) (event : State → Nat → State) : Prop := ∀ s i, owed (event s i) = (owed s).erase i

theorem Strikes.forEach_owed (h : Strikes owed event) : owed (s.forEach (owed s) event) = [] := by
  generalize hlist : owed s = is
  induction is generalizing s with
  | nil => exact hlist
  | cons i is ih => exact ih (by rw [h, hlist, List.erase_cons_head])

/-- The first of a list may come first, and the list start anew. -/
theorem Strikes.forEach_head (h : Strikes owed event) (hhead : (owed s).head? = some i) :
    (event s i).forEach (owed (event s i)) event = s.forEach (owed s) event := by
  obtain ⟨rest, hlist⟩ := List.head?_eq_some_iff.1 hhead
  rw [h, hlist, List.erase_cons_head, State.forEach_cons]

theorem Strikes.supplyUp : Strikes (fun s => s.boundary.suppliedUp) State.supplyUp := by
  intro s p
  by_cases hdue : p ∈ s.boundary.suppliedUp
  · simp only [State.boundary_supplyUp hdue]
  · simp only [State.supplyUp_idle hdue, List.erase_of_not_mem hdue]

theorem Strikes.supplyDown : Strikes (fun s => s.boundary.suppliedDown) State.supplyDown := by
  intro s p
  by_cases hdue : p ∈ s.boundary.suppliedDown
  · simp only [State.boundary_supplyDown hdue]
  · simp only [State.supplyDown_idle hdue, List.erase_of_not_mem hdue]

theorem Strikes.takeTx : Strikes (fun s => s.boundary.txDue) State.takeTx := by
  intro s j
  by_cases hdue : j ∈ s.boundary.txDue
  · obtain ⟨⟨_, -, hboundary⟩, -⟩ := State.takeTx_due hdue
    simp only [hboundary]
  · simp only [State.takeTx_idle hdue, List.erase_of_not_mem hdue]

theorem Strikes.takePlayout : Strikes (fun s => s.boundary.playoutDue) State.takePlayout := by
  intro s c
  by_cases hdue : c ∈ s.boundary.playoutDue
  · simp only [State.takePlayout_owed hdue, ((TableEffect.refl _).playoutStep c).boundary]
  · simp only [State.takePlayout_idle hdue, List.erase_of_not_mem hdue]

theorem Strikes.takeLineCell : Strikes (fun s => s.boundary.lineDue) State.takeLineCell := by
  intro s i
  by_cases hdue : i ∈ s.boundary.lineDue
  · rw [State.takeLineCell_due hdue]
    rfl
  · simp only [State.takeLineCell_idle hdue, List.erase_of_not_mem hdue]

theorem State.reportDue_takeReport (s : State) : s.takeReport.boundary.reportDue = false := by
  cases hdue : s.boundary.reportDue with
  | false => rwa [State.takeReport_idle hdue]
  | true =>
    rw [State.takeReport_due hdue, State.sendReport_frame]
    rfl

end Sys2Proof.Machine
end

section
/-! What a boundary brings about, brought to its end: a quiet state (assumption 2). -/

namespace Sys2Proof.Machine

variable {s t : State}

/-! ### What is still owed, in the order of assumption 2 -/

/-- A quiet state is one that has nothing left of any kind. -/
theorem State.quiet_iff : s.quiet ↔ s.deadlinesDone ∧ s.boundary.txDue = [] ∧ s.boundary.playoutDue = [] ∧
    s.boundary.lineDue = [] ∧ s.boundary.reportDue = false := by
  constructor
  · rintro ⟨hboundary, hcompleting, hholdOff, hanswer, hrefresh, hrechallenge⟩
    have hstruck (f : Boundary → Prop) (hf : f { cutShort := s.boundary.cutShort }) : f s.boundary := hboundary ▸ hf
    have harrivals : s.arrivalsDone := ⟨hstruck (·.suppliedUp = []) rfl, hstruck (·.suppliedDown = []) rfl⟩
    have hverifications : s.verificationsDone :=
      ⟨harrivals, hstruck (·.secondDue = false) rfl, hcompleting, hstruck (·.takeDue = false) rfl⟩
    exact ⟨⟨⟨hverifications, hholdOff, fun e ⟨c, hc, hstage⟩ => hanswer e c hc hstage⟩, hrefresh, hrechallenge⟩,
      hstruck (·.txDue = []) rfl, hstruck (·.playoutDue = []) rfl, hstruck (·.lineDue = []) rfl,
      hstruck (·.reportDue = false) rfl⟩
  · rintro ⟨⟨⟨⟨⟨hup, hdown⟩, hsecond, hcompleting, htake⟩, hholdOff, hanswer⟩, hrefresh, hrechallenge⟩, htx, hplayout, hline,
      hreport⟩
    refine ⟨?_, hcompleting, hholdOff, fun e c hc hstage => hanswer e ⟨c, hc, hstage⟩, hrefresh, hrechallenge⟩
    cases hb : s.boundary
    simp_all

theorem OwesNoMore.verificationsDone (h : OwesNoMore s t) (hs : s.verificationsDone) : t.verificationsDone := by
  obtain ⟨⟨hup, hdown⟩, hsecond, hcompleting, htake⟩ := hs
  have hb := h.boundary
  refine ⟨⟨List.subset_nil.1 (hup ▸ hb.suppliedUp), List.subset_nil.1 (hdown ▸ hb.suppliedDown)⟩, ?_, h.completing hcompleting, ?_⟩
  · exact Bool.eq_false_iff.2 fun hdue => Bool.eq_false_iff.1 hsecond (hb.secondDue hdue)
  · exact Bool.eq_false_iff.2 fun hdue => Bool.eq_false_iff.1 htake (hb.takeDue hdue)

theorem OwesNoMore.frameDeadlinesDone (h : OwesNoMore s t) (hs : s.frameDeadlinesDone) : t.frameDeadlinesDone := by
  obtain ⟨hverifications, hholdOff, hanswer⟩ := hs
  exact ⟨h.verificationsDone hverifications, fun p => hholdOff p ∘ h.holdOff p, fun e => hanswer e ∘ h.answer e⟩

theorem OwesNoMore.deadlinesDone (h : OwesNoMore s t) (hs : s.deadlinesDone) : t.deadlinesDone := by
  obtain ⟨hframe, hrefresh, hrechallenge⟩ := hs
  exact ⟨h.frameDeadlinesDone hframe, fun e => hrefresh e ∘ h.refresh e, fun e => hrechallenge e ∘ h.rechallenge e⟩

/-! ### The parts of what a boundary brings about -/

/-- The transmit sides, the playout channels and the outbound cells. -/
def State.finishCells (s : State) : State :=
  let s := s.forEach s.boundary.txDue State.takeTx
  let s := s.forEach s.boundary.playoutDue State.takePlayout
  let s := s.forEach s.boundary.lineDue State.takeLineCell
  s.takeReport

/-- The deadlines of the frame, then those of the second. -/
def State.meetDeadlines (s : State) : State :=
  let s := s.forEach s.positions.indices State.takeHoldOff
  let s := s.forEach s.entries.indices State.takeAnswerDeadline
  let s := s.forEach s.entries.indices State.takeRefresh
  s.forEach s.entries.indices State.takeRechallenge

/-- The arrivals that a cut-short frame still owes. -/
def State.supplyAll (s : State) : State :=
  let s := s.forEach s.boundary.suppliedUp State.supplyUp
  s.forEach s.boundary.suppliedDown State.supplyDown

/-- The Second Count, the completions and the take. -/
def State.verifyAll (s : State) : State := s.takeSecond.complete.takeVerifications

theorem State.finishBoundary_eq (s : State) : s.finishBoundary = s.supplyAll.verifyAll.meetDeadlines.finishCells := by
  simp only [State.finishBoundary, State.supplyAll, State.verifyAll, State.meetDeadlines, State.finishCells]

/-! ### The arrivals, the completions and the take -/

theorem State.arrivalsDone_supplyAll (s : State) : s.supplyAll.arrivalsDone :=
  ⟨State.forEach_keeps (P := fun v => v.boundary.suppliedUp = []) (fun v p h => (v.suppliedUp_supplyDown p).trans h) _
    Strikes.supplyUp.forEach_owed, Strikes.supplyDown.forEach_owed⟩

theorem State.supplyAll_of_arrivalsDone (h : s.arrivalsDone) : s.supplyAll = s := by
  obtain ⟨hup, hdown⟩ := h
  simp only [State.supplyAll, hup, hdown, State.forEach_nil]

theorem State.secondDue_takeSecond (s : State) : s.takeSecond.boundary.secondDue = false := by
  cases hdue : s.boundary.secondDue with
  | false => rwa [State.takeSecond_idle hdue]
  | true => rw [State.takeSecond_due hdue]

theorem State.arrivalsDone_takeSecond (h : s.arrivalsDone) : s.takeSecond.arrivalsDone := by
  cases hdue : s.boundary.secondDue with
  | false => rwa [State.takeSecond_idle hdue]
  | true => rw [State.takeSecond_due hdue]; exact h

/-- Once the Second Count has advanced, the completions leave nothing to complete and strike nothing from the record. -/
theorem State.complete_completes (n : Nat) (hlength : s.completing.length = n) (hsecond : s.boundary.secondDue = false) :
    s.complete.completing = [] ∧ s.complete.boundary = s.boundary := by
  induction n generalizing s with
  | zero =>
    have hnil := List.eq_nil_of_length_eq_zero hlength
    rw [State.complete_idle hnil]
    exact ⟨hnil, rfl⟩
  | succ n ih =>
    obtain ⟨f, rest, hcons⟩ := List.exists_cons_of_length_eq_add_one hlength
    have heffect := (TableEffect.refl { s with completing := rest }).completeItem f
    rw [hcons, List.length_cons] at hlength
    obtain ⟨hnil, hboundary⟩ := ih (heffect.completing.trans (Nat.succ.inj hlength)) 
      ((congrArg Boundary.secondDue heffect.boundary).trans hsecond)
    rw [State.complete_cons hcons hsecond]
    exact ⟨hnil, hboundary.trans heffect.boundary⟩

theorem State.verificationsDone_verifyAll (h : s.arrivalsDone) : s.verifyAll.verificationsDone := by
  obtain ⟨hcompleting, hboundary⟩ := State.complete_completes _ rfl s.secondDue_takeSecond
  have harrivals : s.takeSecond.complete.arrivalsDone := by
    rw [State.arrivalsDone, hboundary]; exact State.arrivalsDone_takeSecond h
  have hsecond : s.takeSecond.complete.boundary.secondDue = false := by rw [hboundary]; exact s.secondDue_takeSecond
  unfold State.verifyAll
  cases htake : s.takeSecond.complete.boundary.takeDue with
  | false =>
    rw [State.takeVerifications_idle htake]
    exact ⟨harrivals, hsecond, hcompleting, htake⟩
  | true =>
    rw [State.takeVerifications, if_pos htake]
    exact ⟨harrivals, hsecond, hcompleting, rfl⟩

theorem State.verifyAll_of_verificationsDone (h : s.verificationsDone) : s.verifyAll = s := by
  obtain ⟨-, hsecond, hcompleting, htake⟩ := h
  rw [State.verifyAll, State.takeSecond_idle hsecond, State.complete_idle hcompleting, State.takeVerifications_idle htake]

theorem State.Lawful.supplyAll (h : s.Lawful) : s.supplyAll.Lawful :=
  State.forEach_keeps (fun _ p hv => ⟨((EventKeeps.refl _).supplyDown p).ranged hv.ranged, hv.roster.supplyDown p⟩) _ <|
    State.forEach_keeps (fun _ p hv => ⟨((EventKeeps.refl _).supplyUp p).ranged hv.ranged, hv.roster.supplyUp p⟩) _ h

theorem State.Lawful.verifyAll (h : s.Lawful) : s.verifyAll.Lawful :=
  ⟨(EventKeeps.refl s).takeSecond.complete.takeVerifications.ranged h.ranged, h.roster.takeSecond.complete.takeVerifications⟩

/-! ### The deadlines -/

theorem State.position_ne_of_holdOffDue {p : Nat} (h : s.holdOffDue p) : s.position p ≠ {} :=
  fun hreset => nomatch h.symm.trans (congrArg Position.holdOff hreset)

theorem State.entry_ne_of_answerDue {e : Nat} (h : s.answerDue e) : s.entry e ≠ {} := by
  obtain ⟨c, hc, -⟩ := h
  exact fun hreset => nomatch hc.symm.trans (congrArg Entry.candidate hreset)

theorem State.entry_ne_of_refreshDue {e : Nat} (h : s.refreshDue e) : s.entry e ≠ {} :=
  fun hreset => nomatch h.symm.trans (congrArg Entry.refresh hreset)

theorem State.entry_ne_of_rechallengeDue {e : Nat} (h : s.rechallengeDue e) : s.entry e ≠ {} :=
  fun hreset => nomatch h.symm.trans (congrArg Entry.rechallenge hreset)

theorem State.mem_indices_of_holdOffDue {p : Nat} (h : s.holdOffDue p) : p ∈ s.positions.indices :=
  Table.mem_indices_of_get (State.position_ne_of_holdOffDue h)

theorem State.mem_indices_of_answerDue {e : Nat} (h : s.answerDue e) : e ∈ s.entries.indices :=
  Table.mem_indices_of_get (State.entry_ne_of_answerDue h)

theorem State.mem_indices_of_refreshDue {e : Nat} (h : s.refreshDue e) : e ∈ s.entries.indices :=
  Table.mem_indices_of_get (State.entry_ne_of_refreshDue h)

theorem State.mem_indices_of_rechallengeDue {e : Nat} (h : s.rechallengeDue e) : e ∈ s.entries.indices :=
  Table.mem_indices_of_get (State.entry_ne_of_rechallengeDue h)

section

variable {due : State → Nat → Prop} {event : State → Nat → State} {is : List Nat}

/-- A sequence that holds every index due leaves none due. -/
theorem DeadlineEvent.none_due (h : DeadlineEvent due event) (hs : s.Lawful) (hin : ∀ i, due s i → i ∈ is) (i : Nat) :
    ¬ due (s.forEach is event) i :=
  h.not_due_forEach hs ((Classical.em (due s i)).imp_left (hin i))

end

theorem State.Lawful.meetDeadlines (h : s.Lawful) (hdone : s.verificationsDone) :
    s.meetDeadlines.Lawful ∧ s.meetDeadlines.deadlinesDone := by
  obtain ⟨hlawful₁, howes₁⟩ := LateEvent.takeHoldOff.forEach h s.positions.indices
  have hholdOff := DeadlineEvent.takeHoldOff.none_due h fun _ => State.mem_indices_of_holdOffDue
  generalize ht : s.forEach s.positions.indices State.takeHoldOff = t at *
  obtain ⟨hlawful₂, howes₂⟩ := LateEvent.takeAnswerDeadline.forEach hlawful₁ t.entries.indices
  have hanswer := DeadlineEvent.takeAnswerDeadline.none_due hlawful₁ fun _ => State.mem_indices_of_answerDue
  generalize hu : t.forEach t.entries.indices State.takeAnswerDeadline = u at *
  have hframe : u.frameDeadlinesDone :=
    ⟨(howes₁.trans howes₂).verificationsDone hdone, fun p => hholdOff p ∘ howes₂.holdOff p, hanswer⟩
  obtain ⟨hlawful₃, howes₃⟩ := LateEvent.takeRefresh.forEach hlawful₂ u.entries.indices
  have hrefresh := DeadlineEvent.takeRefresh.none_due hlawful₂ fun _ => State.mem_indices_of_refreshDue
  generalize hv : u.forEach u.entries.indices State.takeRefresh = v at *
  obtain ⟨hlawful₄, howes₄⟩ := LateEvent.takeRechallenge.forEach hlawful₃ v.entries.indices
  have hrechallenge := DeadlineEvent.takeRechallenge.none_due hlawful₃ fun _ => State.mem_indices_of_rechallengeDue
  have hmeet : s.meetDeadlines = v.forEach v.entries.indices State.takeRechallenge := by
    simp only [State.meetDeadlines, ht, hu, hv]
  rw [hmeet]
  exact ⟨hlawful₄, (howes₃.trans howes₄).frameDeadlinesDone hframe, fun e => hrefresh e ∘ howes₄.refresh e, hrechallenge⟩

theorem State.meetDeadlines_of_deadlinesDone (h : s.deadlinesDone) : s.meetDeadlines = s := by
  obtain ⟨⟨-, hholdOff, hanswer⟩, hrefresh, hrechallenge⟩ := h
  simp only [State.meetDeadlines, DeadlineEvent.takeHoldOff.forEach_idle hholdOff,
    DeadlineEvent.takeAnswerDeadline.forEach_idle hanswer, DeadlineEvent.takeRefresh.forEach_idle hrefresh,
    DeadlineEvent.takeRechallenge.forEach_idle hrechallenge]

/-! ### The cells, and the end -/

theorem State.Lawful.quiet_finishCells (h : s.Lawful) (hdone : s.deadlinesDone) : s.finishCells.quiet := by
  obtain ⟨hlawful₁, howes₁⟩ := LateEvent.takeTx.forEach h s.boundary.txDue
  have htx := Strikes.takeTx.forEach_owed (s := s)
  generalize ht : s.forEach s.boundary.txDue State.takeTx = t at *
  obtain ⟨hlawful₂, howes₂⟩ := LateEvent.takePlayout.forEach hlawful₁ t.boundary.playoutDue
  have hplayout := Strikes.takePlayout.forEach_owed (s := t)
  generalize hu : t.forEach t.boundary.playoutDue State.takePlayout = u at *
  obtain ⟨hlawful₃, howes₃⟩ := LateEvent.takeLineCell.forEach hlawful₂ u.boundary.lineDue
  have hline := Strikes.takeLineCell.forEach_owed (s := u)
  generalize hv : u.forEach u.boundary.lineDue State.takeLineCell = v at *
  have howes₄ := (OwesNoMore.refl v).takeReport
  have hfinish : s.finishCells = v.takeReport := by simp only [State.finishCells, ht, hu, hv]
  rw [hfinish, State.quiet_iff]
  exact ⟨(((howes₁.trans howes₂).trans howes₃).trans howes₄).deadlinesDone hdone,
    List.subset_nil.1 (htx ▸ ((howes₂.trans howes₃).trans howes₄).boundary.txDue),
    List.subset_nil.1 (hplayout ▸ (howes₃.trans howes₄).boundary.playoutDue),
    List.subset_nil.1 (hline ▸ howes₄.boundary.lineDue), v.reportDue_takeReport⟩

/-- All that a boundary brings about, brought about, leaves the state quiet. -/
theorem State.Lawful.quiet_finishBoundary (h : s.Lawful) : s.finishBoundary.quiet := by
  rw [State.finishBoundary_eq]
  have hverifications := State.verificationsDone_verifyAll s.arrivalsDone_supplyAll
  obtain ⟨hlawful, hdone⟩ := h.supplyAll.verifyAll.meetDeadlines hverifications
  exact hlawful.quiet_finishCells hdone

end Sys2Proof.Machine
end

section
/-! Slots, supplied arrivals and cells (R2, R7, R34): what comes before what in a frame (assumptions 2, 5 and 18). -/

namespace Sys2Proof.Machine

variable {s t : State}

/-! ### A cell after the boundary -/

theorem State.pulsed.finishBoundary (h : s.pulsed) : s.finishBoundary.pulsed := h.of_eventKeeps (.finishBoundary s)

theorem State.managementCell_finishBoundary (hpulsed : s.pulsed) (hquiet : s.finishBoundary.quiet) (effect : State → State) :
    s.managementCell effect = s.finishBoundary.managementCell effect := by
  rw [State.managementCell_inFrame ⟨hpulsed.finishBoundary, hquiet⟩]
  exact State.whilePulsed_of_pulsed hpulsed _

theorem State.lineCell_finishBoundary (hpulsed : s.pulsed) (hquiet : s.finishBoundary.quiet) {slot : Nat} (hslot : slot < 120)
    (highway : Nat) (effect : Nat → State → State) :
    s.lineCell highway slot effect = s.finishBoundary.lineCell highway slot effect := by
  rw [State.lineCell_inFrame ⟨hpulsed.finishBoundary, hquiet⟩ hslot, State.lineCell, State.whilePulsed_of_pulsed hpulsed,
    if_pos hslot]

/-- A cell cannot tell two states apart that no effect of a cell tells apart. -/
theorem exec_cell_congr {c : Instr} (hcell : isCell c = true)
    (hmanagement : ∀ effect, s.managementCell effect = t.managementCell effect)
    (hline : ∀ highway slot effect, slot < 120 → s.lineCell highway slot effect = t.lineCell highway slot effect) :
    exec c s = exec c t := by
  cases c with
  | signOn highway slot _ | answer highway slot _ | keepalive highway slot | signOff highway slot =>
    have hslot : slot < 120 := by simpa only [isCell, decide_eq_true_eq] using hcell
    simp only [exec, execSignOn, execAnswer, execKeepalive, execSignOff, hline _ _ _ hslot]
  | unknownKind | loadExtension | unloadExtension | secretHalf | forceSignOff | bar | unbar | setGroupLimits
  | setGroupTimes | stagedHalf | openCall | closeCall | setPositionTreatment | setPositionGain | loadPattern | setPlayout
  | stopPlayout | setDevice | read | restartCalls | restartAll =>
    simp only [exec, execUnknownKind, execLoadExtension, execUnloadExtension, execSecretHalf, execForceSignOff, execBar, execUnbar,
      execSetGroupLimits, execSetGroupTimes, execStagedHalf, execOpenCall, execCloseCall, execSetPositionTreatment,
      execSetPositionGain, execLoadPattern, execSetPlayout, execStopPlayout, execSetDevice, execRead, execRestartCalls,
      execRestartAll, hmanagement]
  | hardwareReset | firstFramePulse | frameBoundary | framePulseAbsent | secondCountAdvance | verificationTake
  | verificationComplete | lineReplySend | reportSend | upstreamArrival | downstreamArrival | txFrameAdvance
  | playoutAdvance | holdOffDeadline | answerDeadline | refreshLapse | rechallengeDeadline | lineIdle | lineCellDiscarded
  | managementIdle | waitingCodeSent => exact nomatch hcell

/-- A cell acts as on the state that its boundary leaves (assumption 2). -/
theorem exec_cell_finishBoundary (hpulsed : s.pulsed) (hquiet : s.finishBoundary.quiet) {c : Instr} (hcell : isCell c = true) :
    exec c s = exec c s.finishBoundary :=
  exec_cell_congr hcell (State.managementCell_finishBoundary hpulsed hquiet)
    fun highway _ effect hslot => State.lineCell_finishBoundary hpulsed hquiet hslot highway effect

/-! ### A supplied arrival before the slots -/

/-- After an upstream arrival that is owed has been supplied, the slots find the same arrivals made. -/
theorem exec_after_suppliedUp {p : Fin 480} (hpulsed : s.pulsed) (hnodup : s.boundary.suppliedUp.Nodup)
    (hnext : exec (.upstreamArrival p .supplied) s = .next t) : t.pulsed ∧ t.supplyBoth p.val = s.supplyBoth p.val := by
  rw [exec_suppliedUp hpulsed] at hnext
  cases hnext
  exact ⟨hpulsed.of_eventKeeps ((EventKeeps.refl s).supplyUp p.val), State.supplyBoth_supplyUp hnodup p.val⟩

theorem exec_after_suppliedDown {p : Fin 480} (hpulsed : s.pulsed) (hnodup : s.boundary.suppliedDown.Nodup)
    (hnext : exec (.downstreamArrival p .supplied) s = .next t) : t.pulsed ∧ t.supplyBoth p.val = s.supplyBoth p.val := by
  rw [exec_suppliedDown hpulsed] at hnext
  cases hnext
  exact ⟨hpulsed.of_eventKeeps ((EventKeeps.refl s).supplyDown p.val), State.supplyBoth_supplyDown hnodup p.val⟩

/-- Settles O8: a slot finds the arrivals owed to its position made, and a cell finds all of its boundary made. -/
theorem slotsSendAndArrivalsAreSupplied : Obligations.SlotsSendAndArrivalsAreSupplied := by
  refine ⟨fun p s hpulsed hup hdown => ?_, fun p s hpulsed hup hdown => ⟨fun hidle => ?_, fun hidle => ?_, ?_, ?_⟩,
    fun p side s u hpulsed hup hdown hnext => ?_, fun c s hcell hwf hagrees hpulsed => ?_⟩
  · rw [exec_waitingCodeSent hpulsed, exec_waitingCodeSent hpulsed, State.driveSlot, State.driveSlot,
      State.supplyBoth_idle hup hdown]
    exact ⟨rfl, rfl⟩
  · rw [exec_suppliedUp hpulsed, State.supplyUp_idle hidle]
  · rw [exec_suppliedDown hpulsed, State.supplyDown_idle hidle]
  · intro code u hnext
    obtain ⟨hpulsed', hboth⟩ := exec_after_suppliedUp hpulsed hup hnext
    obtain ⟨hupstream, hdownstream, -⟩ := exec_of_supplyBoth_eq hpulsed hpulsed' hboth
    exact ⟨hupstream code, hdownstream code⟩
  · intro code u _ hnext
    obtain ⟨hpulsed', hboth⟩ := exec_after_suppliedDown hpulsed hdown hnext
    obtain ⟨hupstream, hdownstream, -⟩ := exec_of_supplyBoth_eq hpulsed hpulsed' hboth
    exact ⟨hupstream code, hdownstream code⟩
  · obtain ⟨hpulsed', hboth⟩ := hnext.elim (exec_after_suppliedUp hpulsed hup) (exec_after_suppliedDown hpulsed hdown)
    exact (exec_of_supplyBoth_eq hpulsed hpulsed' hboth).2.2 side
  · have hquiet := (State.Lawful.of_agrees hwf hagrees).quiet_finishBoundary
    exact ⟨exec_cell_finishBoundary hpulsed hquiet hcell, hpulsed.finishBoundary, hquiet⟩

end Sys2Proof.Machine
end

section
/-! The leftovers of a boundary, one at a time (assumption 2): the event that is owed next, made by its own command, leads
to the same end. -/

namespace Sys2Proof.Machine

variable {s t : State}

/-! ### Where the leftovers begin -/

theorem State.finishBoundary_of_arrivalsDone (h : s.arrivalsDone) :
    s.finishBoundary = s.verifyAll.meetDeadlines.finishCells := by
  rw [State.finishBoundary_eq, State.supplyAll_of_arrivalsDone h]

theorem State.finishBoundary_of_verificationsDone (h : s.verificationsDone) :
    s.finishBoundary = s.meetDeadlines.finishCells := by
  rw [State.finishBoundary_of_arrivalsDone h.1, State.verifyAll_of_verificationsDone h]

theorem State.finishBoundary_of_deadlinesDone (h : s.deadlinesDone) : s.finishBoundary = s.finishCells := by
  rw [State.finishBoundary_of_verificationsDone h.1.1, State.meetDeadlines_of_deadlinesDone h]

/-! ### The arrivals (R2) -/

theorem State.finishBoundary_supplyUp {p : Nat} (h : s.boundary.suppliedUp.head? = some p) :
    (s.supplyUp p).finishBoundary = s.finishBoundary := by
  have hhead : (s.supplyUp p).forEach (s.supplyUp p).boundary.suppliedUp State.supplyUp =
      s.forEach s.boundary.suppliedUp State.supplyUp := Strikes.supplyUp.forEach_head h
  rw [State.finishBoundary_eq, State.finishBoundary_eq, State.supplyAll, State.supplyAll, hhead]

theorem State.finishBoundary_supplyDown {p : Nat} (hup : s.boundary.suppliedUp = [])
    (h : s.boundary.suppliedDown.head? = some p) : (s.supplyDown p).finishBoundary = s.finishBoundary := by
  have hhead : (s.supplyDown p).forEach (s.supplyDown p).boundary.suppliedDown State.supplyDown =
      s.forEach s.boundary.suppliedDown State.supplyDown := Strikes.supplyDown.forEach_head h
  have hup' : (s.supplyDown p).boundary.suppliedUp = [] := (s.suppliedUp_supplyDown p).trans hup
  rw [State.finishBoundary_eq, State.finishBoundary_eq, State.supplyAll, State.supplyAll, hup, hup', State.forEach_nil,
    State.forEach_nil, hhead]

/-! ### The Second Count, the completions and the take (R9, R28, R30) -/

theorem State.finishBoundary_takeSecond (h : s.arrivalsDone) : s.takeSecond.finishBoundary = s.finishBoundary := by
  rw [State.finishBoundary_of_arrivalsDone h, State.finishBoundary_of_arrivalsDone (State.arrivalsDone_takeSecond h),
    State.verifyAll, State.takeSecond_idle s.secondDue_takeSecond, State.verifyAll]

theorem State.finishBoundary_complete (h : s.arrivalsDone) (hsecond : s.boundary.secondDue = false) :
    s.complete.finishBoundary = s.finishBoundary := by
  obtain ⟨hcompleting, hboundary⟩ := State.complete_completes _ rfl hsecond
  have harrivals : s.complete.arrivalsDone := by rw [State.arrivalsDone, hboundary]; exact h
  have hsecond' : s.complete.boundary.secondDue = false := by rw [hboundary]; exact hsecond
  rw [State.finishBoundary_of_arrivalsDone h, State.finishBoundary_of_arrivalsDone harrivals, State.verifyAll,
    State.verifyAll, State.takeSecond_idle hsecond', State.complete_idle hcompleting, State.takeSecond_idle hsecond]

theorem State.finishBoundary_takeVerifications (h : s.arrivalsDone) (hsecond : s.boundary.secondDue = false)
    (hcompleting : s.completing = []) : s.takeVerifications.finishBoundary = s.finishBoundary := by
  have hall : s.verifyAll = s.takeVerifications := by
    rw [State.verifyAll, State.takeSecond_idle hsecond, State.complete_idle hcompleting]
  have hdone := State.verificationsDone_verifyAll h
  rw [hall] at hdone
  rw [State.finishBoundary_of_arrivalsDone h, State.finishBoundary_of_verificationsDone hdone, hall]

/-! ### The deadlines (R77, R86, R108, R110) -/

theorem Table.pairwise_indices {α : Type} [DecidableEq α] {n : Nat} {d : α} {t : Table α} (h : Table.wf n d t = true) :
    t.indices.Pairwise (· < ·) := by
  induction t with
  | nil => exact List.Pairwise.nil
  | cons x rest ih =>
    obtain ⟨-, -, hbelow, hrest⟩ := Table.wf_cons.1 h
    refine List.pairwise_cons.2 ⟨fun k hk => ?_, ih hrest⟩
    obtain ⟨y, hy, rfl⟩ := List.mem_map.1 hk
    exact hbelow y hy

theorem State.Lawful.positions_rise (h : s.Lawful) : s.positions.indices.Pairwise (· < ·) :=
  Table.pairwise_indices h.ranged.positions.wf

theorem State.Lawful.entries_rise (h : s.Lawful) : s.entries.indices.Pairwise (· < ·) :=
  Table.pairwise_indices h.ranged.entries.wf

theorem State.finishBoundary_takeHoldOff (hs : s.Lawful) {p : Nat} (hdone : s.verificationsDone)
    (h : Lowest s.holdOffDue p) : (s.takeHoldOff p).finishBoundary = s.finishBoundary := by
  have howes := LateEvent.takeHoldOff.owes s p hs
  have hlowest := DeadlineEvent.takeHoldOff.forEach_lowest hs h hs.positions_rise
    (LateEvent.takeHoldOff.lawful s p hs).positions_rise (fun _ => State.mem_indices_of_holdOffDue)
    fun _ => State.mem_indices_of_holdOffDue
  rw [State.finishBoundary_of_verificationsDone hdone,
    State.finishBoundary_of_verificationsDone (howes.verificationsDone hdone), State.meetDeadlines, hlowest,
    State.meetDeadlines]

theorem State.finishBoundary_takeAnswerDeadline (hs : s.Lawful) {e : Nat} (hdone : s.verificationsDone)
    (hholdOff : ∀ p, ¬ s.holdOffDue p) (h : Lowest s.answerDue e) :
    (s.takeAnswerDeadline e).finishBoundary = s.finishBoundary := by
  have howes := LateEvent.takeAnswerDeadline.owes s e hs
  have hlowest := DeadlineEvent.takeAnswerDeadline.forEach_lowest hs h hs.entries_rise
    (LateEvent.takeAnswerDeadline.lawful s e hs).entries_rise (fun _ => State.mem_indices_of_answerDue)
    fun _ => State.mem_indices_of_answerDue
  rw [State.finishBoundary_of_verificationsDone hdone,
    State.finishBoundary_of_verificationsDone (howes.verificationsDone hdone), State.meetDeadlines, State.meetDeadlines,
    DeadlineEvent.takeHoldOff.forEach_idle hholdOff,
    DeadlineEvent.takeHoldOff.forEach_idle fun p => hholdOff p ∘ howes.holdOff p, hlowest]

theorem State.finishBoundary_takeRefresh (hs : s.Lawful) {e : Nat} (hdone : s.frameDeadlinesDone)
    (h : Lowest s.refreshDue e) : (s.takeRefresh e).finishBoundary = s.finishBoundary := by
  have howes := LateEvent.takeRefresh.owes s e hs
  have hlowest := DeadlineEvent.takeRefresh.forEach_lowest hs h hs.entries_rise
    (LateEvent.takeRefresh.lawful s e hs).entries_rise (fun _ => State.mem_indices_of_refreshDue)
    fun _ => State.mem_indices_of_refreshDue
  obtain ⟨hverifications, hholdOff, hanswer⟩ := hdone
  rw [State.finishBoundary_of_verificationsDone hverifications,
    State.finishBoundary_of_verificationsDone (howes.verificationsDone hverifications), State.meetDeadlines, State.meetDeadlines,
    DeadlineEvent.takeHoldOff.forEach_idle hholdOff, DeadlineEvent.takeAnswerDeadline.forEach_idle hanswer,
    DeadlineEvent.takeHoldOff.forEach_idle fun p => hholdOff p ∘ howes.holdOff p,
    DeadlineEvent.takeAnswerDeadline.forEach_idle fun f => hanswer f ∘ howes.answer f, hlowest]

theorem State.finishBoundary_takeRechallenge (hs : s.Lawful) {e : Nat} (hdone : s.frameDeadlinesDone)
    (hrefresh : ∀ f, ¬ s.refreshDue f) (h : Lowest s.rechallengeDue e) :
    (s.takeRechallenge e).finishBoundary = s.finishBoundary := by
  have howes := LateEvent.takeRechallenge.owes s e hs
  have hlowest := DeadlineEvent.takeRechallenge.forEach_lowest hs h hs.entries_rise
    (LateEvent.takeRechallenge.lawful s e hs).entries_rise (fun _ => State.mem_indices_of_rechallengeDue)
    fun _ => State.mem_indices_of_rechallengeDue
  obtain ⟨hverifications, hholdOff, hanswer⟩ := hdone
  rw [State.finishBoundary_of_verificationsDone hverifications,
    State.finishBoundary_of_verificationsDone (howes.verificationsDone hverifications), State.meetDeadlines, State.meetDeadlines,
    DeadlineEvent.takeHoldOff.forEach_idle hholdOff, DeadlineEvent.takeAnswerDeadline.forEach_idle hanswer,
    DeadlineEvent.takeRefresh.forEach_idle hrefresh,
    DeadlineEvent.takeHoldOff.forEach_idle fun p => hholdOff p ∘ howes.holdOff p,
    DeadlineEvent.takeAnswerDeadline.forEach_idle fun f => hanswer f ∘ howes.answer f,
    DeadlineEvent.takeRefresh.forEach_idle fun f => hrefresh f ∘ howes.refresh f, hlowest]

/-! ### The transmit sides, the playout channels and the outbound cells (R7, R130, R160, R172) -/

theorem State.finishBoundary_takeTx {j : Nat} (hdone : s.deadlinesDone) (h : s.boundary.txDue.head? = some j) :
    (s.takeTx j).finishBoundary = s.finishBoundary := by
  have hhead : (s.takeTx j).forEach (s.takeTx j).boundary.txDue State.takeTx = s.forEach s.boundary.txDue State.takeTx :=
    Strikes.takeTx.forEach_head h
  rw [State.finishBoundary_of_deadlinesDone hdone,
    State.finishBoundary_of_deadlinesDone (((OwesNoMore.refl s).takeTx j).deadlinesDone hdone), State.finishCells,
    State.finishCells, hhead]

theorem State.finishBoundary_takePlayout {c : Nat} (hdone : s.deadlinesDone) (htx : s.boundary.txDue = [])
    (h : s.boundary.playoutDue.head? = some c) : (s.takePlayout c).finishBoundary = s.finishBoundary := by
  have howes := (OwesNoMore.refl s).takePlayout c
  have hhead : (s.takePlayout c).forEach (s.takePlayout c).boundary.playoutDue State.takePlayout =
      s.forEach s.boundary.playoutDue State.takePlayout := Strikes.takePlayout.forEach_head h
  have htx' := List.subset_nil.1 (htx ▸ howes.boundary.txDue)
  rw [State.finishBoundary_of_deadlinesDone hdone, State.finishBoundary_of_deadlinesDone (howes.deadlinesDone hdone),
    State.finishCells, State.finishCells, htx, htx', State.forEach_nil, State.forEach_nil, hhead]

theorem State.finishBoundary_takeLineCell {i : Nat} (hdone : s.deadlinesDone) (htx : s.boundary.txDue = [])
    (hplayout : s.boundary.playoutDue = []) (h : s.boundary.lineDue.head? = some i) :
    (s.takeLineCell i).finishBoundary = s.finishBoundary := by
  have howes := (OwesNoMore.refl s).takeLineCell i
  have hhead : (s.takeLineCell i).forEach (s.takeLineCell i).boundary.lineDue State.takeLineCell =
      s.forEach s.boundary.lineDue State.takeLineCell := Strikes.takeLineCell.forEach_head h
  have htx' := List.subset_nil.1 (htx ▸ howes.boundary.txDue)
  have hplayout' := List.subset_nil.1 (hplayout ▸ howes.boundary.playoutDue)
  rw [State.finishBoundary_of_deadlinesDone hdone, State.finishBoundary_of_deadlinesDone (howes.deadlinesDone hdone),
    State.finishCells, State.finishCells, htx, htx', State.forEach_nil, State.forEach_nil, hplayout, hplayout',
    State.forEach_nil, State.forEach_nil, hhead]

/-- The take of the management cell comes last, and leaves the state quiet. -/
theorem State.finishBoundary_takeReport (hdone : s.deadlinesDone) (htx : s.boundary.txDue = [])
    (hplayout : s.boundary.playoutDue = []) (hline : s.boundary.lineDue = []) :
    s.takeReport.finishBoundary = s.finishBoundary := by
  have howes := (OwesNoMore.refl s).takeReport
  have hquiet : s.takeReport.quiet := State.quiet_iff.2
    ⟨howes.deadlinesDone hdone, List.subset_nil.1 (htx ▸ howes.boundary.txDue),
      List.subset_nil.1 (hplayout ▸ howes.boundary.playoutDue), List.subset_nil.1 (hline ▸ howes.boundary.lineDue),
      s.reportDue_takeReport⟩
  rw [State.finishBoundary_of_quiet hquiet, State.finishBoundary_of_deadlinesDone hdone, State.finishCells, htx,
    State.forEach_nil, hplayout, State.forEach_nil, hline, State.forEach_nil]

/-! ### The command of the event owed next -/

/-- The command of the event owed next takes one step towards the end that the boundary brings about. -/
theorem exec_of_nextDue (hs : s.Lawful) (hpulsed : s.pulsed) {c : Instr} (hdue : s.nextDue c) :
    ∃ u, exec c s = .next u ∧ u.finishBoundary = s.finishBoundary := by
  cases c with
  | upstreamArrival p a =>
    cases a with
    | supplied => exact ⟨_, exec_suppliedUp hpulsed p, State.finishBoundary_supplyUp hdue⟩
    | carried _ => exact hdue.elim
  | downstreamArrival p a =>
    cases a with
    | supplied =>
      obtain ⟨hup, hhead⟩ := hdue
      exact ⟨_, exec_suppliedDown hpulsed p, State.finishBoundary_supplyDown hup hhead⟩
    | carried _ => exact hdue.elim
  | secondCountAdvance =>
    obtain ⟨harrivals, -⟩ := hdue
    exact ⟨_, exec_secondCountAdvance hpulsed, State.finishBoundary_takeSecond harrivals⟩
  | verificationComplete =>
    obtain ⟨harrivals, hsecond, -⟩ := hdue
    exact ⟨_, exec_verificationComplete hpulsed, State.finishBoundary_complete harrivals hsecond⟩
  | verificationTake =>
    obtain ⟨harrivals, hsecond, hcompleting, -⟩ := hdue
    exact ⟨_, exec_verificationTake hpulsed, State.finishBoundary_takeVerifications harrivals hsecond hcompleting⟩
  | holdOffDeadline p =>
    obtain ⟨hdone, hlowest⟩ := hdue
    exact ⟨_, exec_holdOffDeadline hpulsed p, State.finishBoundary_takeHoldOff hs hdone hlowest⟩
  | answerDeadline e =>
    obtain ⟨hdone, hholdOff, hlowest⟩ := hdue
    exact ⟨_, exec_answerDeadline hpulsed e, State.finishBoundary_takeAnswerDeadline hs hdone hholdOff hlowest⟩
  | refreshLapse e =>
    obtain ⟨hdone, hlowest⟩ := hdue
    exact ⟨_, exec_refreshLapse hpulsed e, State.finishBoundary_takeRefresh hs hdone hlowest⟩
  | rechallengeDeadline e =>
    obtain ⟨hdone, hrefresh, hlowest⟩ := hdue
    exact ⟨_, exec_rechallengeDeadline hpulsed e, State.finishBoundary_takeRechallenge hs hdone hrefresh hlowest⟩
  | txFrameAdvance j =>
    obtain ⟨hdone, hhead⟩ := hdue
    exact ⟨_, exec_txFrameAdvance hpulsed j, State.finishBoundary_takeTx hdone hhead⟩
  | playoutAdvance c =>
    obtain ⟨hdone, htx, hhead⟩ := hdue
    exact ⟨_, exec_playoutAdvance hpulsed c, State.finishBoundary_takePlayout hdone htx hhead⟩
  | lineReplySend i =>
    obtain ⟨hdone, htx, hplayout, hhead⟩ := hdue
    exact ⟨_, exec_lineReplySend hpulsed i, State.finishBoundary_takeLineCell hdone htx hplayout hhead⟩
  | reportSend =>
    obtain ⟨hdone, htx, hplayout, hline, -⟩ := hdue
    exact ⟨_, exec_reportSend hpulsed, State.finishBoundary_takeReport hdone htx hplayout hline⟩
  | _ => exact hdue.elim

/-! ### Something is owed until the state is quiet -/

theorem exists_lowest {due : Nat → Prop} (h : ¬ ∀ i, ¬ due i) : ∃ i, Lowest due i := by
  classical
  have hdue : ∃ i, due i := not_forall_not.1 h
  exact ⟨Nat.find hdue, Nat.find_spec hdue, fun k hk => Nat.find_min hdue hk⟩

theorem State.Ranged.arrivalsDone_or_nextDue (h : s.Ranged) : s.arrivalsDone ∨ ∃ c, s.nextDue c := by
  obtain ⟨-, -, -, hups, hdowns⟩ := Boundary.inRange_iff.1 h.boundary
  cases hup : s.boundary.suppliedUp with
  | cons p rest => exact .inr ⟨.upstreamArrival ⟨p, hups p (hup ▸ List.mem_cons_self ..)⟩ .supplied, by simp [State.nextDue, hup]⟩
  | nil =>
    cases hdown : s.boundary.suppliedDown with
    | cons p rest =>
      exact .inr ⟨.downstreamArrival ⟨p, hdowns p (hdown ▸ List.mem_cons_self ..)⟩ .supplied, by simp [State.nextDue, hup, hdown]⟩
    | nil => exact .inl ⟨hup, hdown⟩

theorem State.arrivalsDone.verificationsDone_or_nextDue (h : s.arrivalsDone) : s.verificationsDone ∨ ∃ c, s.nextDue c := by
  cases hsecond : s.boundary.secondDue with
  | true => exact .inr ⟨.secondCountAdvance, h, hsecond⟩
  | false =>
    by_cases hcompleting : s.completing = []
    · cases htake : s.boundary.takeDue with
      | true => exact .inr ⟨.verificationTake, h, hsecond, hcompleting, htake⟩
      | false => exact .inl ⟨h, hsecond, hcompleting, htake⟩
    · exact .inr ⟨.verificationComplete, h, hsecond, hcompleting⟩

theorem State.Ranged.frameDeadlinesDone_or_nextDue (h : s.Ranged) (hdone : s.verificationsDone) :
    s.frameDeadlinesDone ∨ ∃ c, s.nextDue c := by
  by_cases hholdOff : ∀ p, ¬ s.holdOffDue p
  · by_cases hanswer : ∀ e, ¬ s.answerDue e
    · exact .inl ⟨hdone, hholdOff, hanswer⟩
    · obtain ⟨e, hlowest⟩ := exists_lowest hanswer
      have he := h.entry_lt (State.entry_ne_of_answerDue hlowest.1)
      exact .inr ⟨.answerDeadline ⟨e, he⟩, hdone, hholdOff, hlowest⟩
  · obtain ⟨p, hlowest⟩ := exists_lowest hholdOff
    have hp := h.position_lt (State.position_ne_of_holdOffDue hlowest.1)
    exact .inr ⟨.holdOffDeadline ⟨p, hp⟩, hdone, hlowest⟩

theorem State.Ranged.deadlinesDone_or_nextDue (h : s.Ranged) (hdone : s.frameDeadlinesDone) :
    s.deadlinesDone ∨ ∃ c, s.nextDue c := by
  by_cases hrefresh : ∀ e, ¬ s.refreshDue e
  · by_cases hrechallenge : ∀ e, ¬ s.rechallengeDue e
    · exact .inl ⟨hdone, hrefresh, hrechallenge⟩
    · obtain ⟨e, hlowest⟩ := exists_lowest hrechallenge
      have he := h.entry_lt (State.entry_ne_of_rechallengeDue hlowest.1)
      exact .inr ⟨.rechallengeDeadline ⟨e, he⟩, hdone, hrefresh, hlowest⟩
  · obtain ⟨e, hlowest⟩ := exists_lowest hrefresh
    have he := h.entry_lt (State.entry_ne_of_refreshDue hlowest.1)
    exact .inr ⟨.refreshLapse ⟨e, he⟩, hdone, hlowest⟩

theorem State.Ranged.quiet_or_nextDue_of_deadlinesDone (h : s.Ranged) (hdone : s.deadlinesDone) :
    s.quiet ∨ ∃ c, s.nextDue c := by
  obtain ⟨hlines, hplayouts, htxs, -, -⟩ := Boundary.inRange_iff.1 h.boundary
  cases htx : s.boundary.txDue with
  | cons j rest =>
    exact .inr ⟨.txFrameAdvance ⟨j, htxs j (htx ▸ List.mem_cons_self ..)⟩, hdone, congrArg List.head? htx⟩
  | nil =>
    cases hplayout : s.boundary.playoutDue with
    | cons c rest =>
      exact .inr ⟨.playoutAdvance ⟨c, hplayouts c (hplayout ▸ List.mem_cons_self ..)⟩, hdone, htx, congrArg List.head? hplayout⟩
    | nil =>
      cases hline : s.boundary.lineDue with
      | cons i rest =>
        exact .inr ⟨.lineReplySend ⟨i, hlines i (hline ▸ List.mem_cons_self ..)⟩, hdone, htx, hplayout, congrArg List.head? hline⟩
      | nil =>
        cases hreport : s.boundary.reportDue with
        | true => exact .inr ⟨.reportSend, hdone, htx, hplayout, hline, hreport⟩
        | false => exact .inl (State.quiet_iff.2 ⟨hdone, htx, hplayout, hline, hreport⟩)

/-- As long as a state is not quiet, some event is owed next. -/
theorem State.Ranged.quiet_or_nextDue (h : s.Ranged) : s.quiet ∨ ∃ c, s.nextDue c := by
  rcases h.arrivalsDone_or_nextDue with hdone | hdue
  · rcases hdone.verificationsDone_or_nextDue with hdone | hdue
    · rcases h.frameDeadlinesDone_or_nextDue hdone with hdone | hdue
      · exact (h.deadlinesDone_or_nextDue hdone).elim h.quiet_or_nextDue_of_deadlinesDone .inr
      · exact .inr hdue
    · exact .inr hdue
  · exact .inr hdue

end Sys2Proof.Machine
end

section
/-! The frame boundary (R2, R8, R9, R13, R27, R30, R34): what a pulse that is not the first does. -/

namespace Sys2Proof.Machine

variable {s : State}

/-! ### What a boundary lays down -/

theorem Table.nodup_filter_indices {α : Type} [DecidableEq α] {n : Nat} {d : α} {t : Table α} (h : Table.wf n d t = true)
    (q : Nat × α → Bool) : ((t.filter q).map Prod.fst).Nodup :=
  (Table.pairwise_indices h).nodup.sublist (List.filter_sublist.map Prod.fst)

/-- The Mixing Unit reserves for the contexts in a call (R27). -/
theorem State.Ranged.mem_openContexts (h : s.Ranged) (j : Nat) : j ∈ s.openContexts ↔ (s.context j).call ≠ none := by
  rw [← Option.isSome_iff_ne_none]
  simp only [State.openContexts, List.mem_map, List.mem_filter]
  constructor
  · rintro ⟨⟨k, c⟩, ⟨hlisted, hopen⟩, rfl⟩
    rwa [State.context, ((Table.mem_iff h.contexts.wf k c).1 hlisted).1]
  · intro hopen
    refine ⟨(j, s.context j), ⟨(Table.mem_iff h.contexts.wf j _).2 ⟨rfl, fun hreset => ?_⟩, hopen⟩, rfl⟩
    exact nomatch (congrArg Context.isOpen hreset).symm.trans hopen

theorem State.mem_missing {taken : Position → Bool} {p : Nat} : p ∈ s.missing taken ↔ p < 480 ∧ taken (s.position p) = false := by
  simp [State.missing]

theorem State.nodup_missing (taken : Position → Bool) : (s.missing taken).Nodup := List.nodup_range.filter _

/-- An arrival is owed when the frame was cut short before it came (R2). -/
theorem State.mem_supplied {cut : Bool} {taken : Position → Bool} {p : Nat} :
    p ∈ (if cut then s.missing taken else []) ↔ cut = true ∧ p < 480 ∧ taken (s.position p) = false := by
  cases cut with
  | true => simp [State.mem_missing]
  | false => simp

theorem State.nodup_supplied (cut : Bool) (taken : Position → Bool) : (if cut then s.missing taken else []).Nodup := by
  cases cut with
  | true => exact State.nodup_missing taken
  | false => exact List.nodup_nil

theorem Position.endFrame_eq (cut : Bool) (pos : Position) :
    pos.endFrame cut =
      { pos with
        switchSending := if pos.switchDriven = true ∨ cut = true then pos.switchSending else pos.switchWaiting
        switchWaiting := if pos.switchDriven then pos.switchWaiting else 255
        lineSending := if pos.lineDriven = true ∨ cut = true then pos.lineSending else pos.lineWaiting
        lineWaiting := if pos.lineDriven then pos.lineWaiting else 255
        upTaken := false, downTaken := false, switchDriven := false, lineDriven := false } := by
  cases cut with
  | true => simp [Position.endFrame]
  | false =>
    cases hswitch : pos.switchDriven <;> cases hline : pos.lineDriven <;>
      simp [Position.endFrame, Position.driveSwitch, Position.driveLine, hswitch, hline]

theorem State.Ranged.position_crossBoundary (h : s.Ranged) (cut : Bool) (p : Nat) :
    (s.crossBoundary cut).position p = (s.position p).endFrame cut :=
  Table.get_mapAll h.positions.wf (Position.endFrame cut) (by cases cut <;> rfl) p

/-! ### The pulse -/

theorem exec_frameBoundary (hpulse : s.pulse ≠ .awaiting) (early : Bool) :
    exec (.frameBoundary early) s = .next (s.finishBoundary.crossBoundary (s.cutsShort early)) := by
  simp only [exec, execFrameBoundary, State.framePulse]
  split
  · next hawaiting => exact absurd hawaiting hpulse
  · rfl
  · rfl

theorem State.cutsShort_of_pulse (early : Bool) : (s.pulse = .running → s.cutsShort early = early) ∧
    (s.pulse = .absent .afterFrame → s.cutsShort early = false) ∧
    (s.pulse = .absent .withinFrame → s.cutsShort early = true) := by
  unfold State.cutsShort
  exact ⟨fun h => by rw [h], fun h => by rw [h], fun h => by rw [h]⟩

/-- A boundary finds nothing more to finish in the state that the one before leaves in the end. -/
theorem exec_frameBoundary_of_finished (hpulse : s.pulse ≠ .awaiting) (hquiet : s.finishBoundary.quiet)
    (hkept : s.finishBoundary.pulse = s.pulse) (early : Bool) :
    exec (.frameBoundary early) s = exec (.frameBoundary early) s.finishBoundary := by
  rw [exec_frameBoundary hpulse]
  generalize s.finishBoundary = t at *
  have hpulse' : t.pulse ≠ .awaiting := fun hawaiting => hpulse (hkept.symm.trans hawaiting)
  rw [exec_frameBoundary_of_quiet hquiet hpulse', State.cutsShort, State.cutsShort, hkept]

/-- Settles O6: a boundary finishes the one before and crosses; each leftover's command leads to the same end. -/
theorem boundaryEndsAndBeginsFrame : Obligations.BoundaryEndsAndBeginsFrame := by
  refine ⟨fun early s hpulse => ?_, fun early s hwf hquiet hpulse => ?_, fun early s hwf hagrees hpulse => ?_,
    fun c s hwf hagrees hpulsed hdue => ?_, fun s hwf => (State.Ranged.of_wf hwf).quiet_or_nextDue,
    fun s => State.finishBoundary_of_quiet⟩
  · have hfixed := (EventKeeps.finishBoundary s).fixed
    simp only [State.fixed, Prod.mk.injEq] at hfixed
    obtain ⟨hpending, hframe, hsettings, hpattern, hpair, hfree, -⟩ := hfixed
    rw [exec_frameBoundary hpulse]
    generalize s.finishBoundary = t at *
    exact ⟨_, rfl, congrArg (· + 1) hframe, rfl, hsettings, hpattern, hpair, hfree, hpending⟩
  · have hranged := State.Ranged.of_wf hwf
    obtain ⟨hrunning, hafter, hwithin⟩ := s.cutsShort_of_pulse early
    refine ⟨_, s.cutsShort early, exec_frameBoundary_of_quiet hquiet hpulse early, hrunning, hafter, hwithin, rfl, ?_, rfl,
      rfl, rfl, rfl, rfl, Table.nodup_filter_indices hranged.channels.wf _, State.mem_runningChannels hranged.channels.wf,
      hranged.mem_openContexts, rfl, Table.nodup_filter_indices hranged.contexts.wf _, fun _ => State.mem_supplied,
      fun _ => State.mem_supplied, State.nodup_supplied _ _, State.nodup_supplied _ _, ?_, rfl, fun p => ?_, rfl⟩
    · show prescaleAfter s.framePrescale = _
      unfold prescaleAfter
      split
      · next hlast => exact hlast
      · rfl
    · show s.completing ++ s.inFlight = s.inFlight
      obtain ⟨-, hcompleting, -⟩ := hquiet
      rw [hcompleting, List.nil_append]
    · rw [hranged.position_crossBoundary, Position.endFrame_eq]
  · have hquiet := (State.Lawful.of_agrees hwf hagrees).quiet_finishBoundary
    exact ⟨hquiet, exec_frameBoundary_of_finished hpulse hquiet (EventKeeps.finishBoundary s).pulse early⟩
  · exact exec_of_nextDue (State.Lawful.of_agrees hwf hagrees) hpulsed hdue

end Sys2Proof.Machine
end
